-- ==== Sys2Proof/Word.lean ====
section
/-! DEFINITION. The two widths the block works with (00_scope.md R10, 20_memory.md R58): bytes of a
frame and 16-bit fields. -/

namespace Sys2Proof

/-- A byte of a frame: `u8` of R10. -/
abbrev Byte := BitVec 8

/-- A 16-bit field, register operand or checksum: `u16` of R10. -/
abbrev Word := BitVec 16

end Sys2Proof
end

