-- ==== Sys2Proof/Machine/Bytes.lean ====
section
/-! DEFINITION. Byte-order helpers of 00_scope.md R11: how a 16-bit field is laid out as two bytes and
read back. Big-endian for every payload field (20_memory.md R53), little-endian for the checksum only
(R54). -/

namespace Sys2Proof

/-- `v[15:8]` (R10). -/
def hiByte (v : Word) : Byte := (v >>> 8).setWidth 8

/-- `v[7:0]` (R10). -/
def loByte (v : Word) : Byte := v.setWidth 8

/-- `be16(v)`: high byte first (R11, R53). -/
def be16 (v : Word) : List Byte := [hiByte v, loByte v]

/-- `le16(v)`: low byte first (R11, R54). -/
def le16 (v : Word) : List Byte := [loByte v, hiByte v]

/-- The 16-bit value whose high byte is `hi` and low byte is `lo`: `hi << 8 | lo` (R11). -/
def joinBytes (hi lo : Byte) : Word := (hi.setWidth 16 <<< 8) ||| lo.setWidth 16

/-- A sequence of 16-bit fields, each big-endian (R53). -/
def be16s : List Word → List Byte
  | [] => []
  | w :: ws => be16 w ++ be16s ws

/-- A sequence of big-endian 16-bit fields read back; `none` when a byte is left over. -/
def wordsOf : List Byte → Option (List Word)
  | [] => some []
  | [_] => none
  | h :: l :: rest => (wordsOf rest).map (joinBytes h l :: ·)

end Sys2Proof
end

