-- ==== Sys2Proof/Machine/Crc.lean ====
section
/-! DEFINITION. The CRC unit's arithmetic (40_crc.md R110 to R113): the bit-serial step and the fold
over a message. No table, no final XOR. -/

namespace Sys2Proof

/-- One of the 8 iterations of R111: the test is on bit 0 before the shift, the shift is logical. -/
def crcIter (c : Word) : Word :=
  if c.getLsbD 0 then (c >>> 1) ^^^ 0xA001#16 else c >>> 1

/-- `n` iterations. -/
def crcIters : Nat → Word → Word
  | 0, c => c
  | n + 1, c => crcIters n (crcIter c)

/-- `crc_step(c, b)` of R111: XOR the byte into the low byte, then 8 iterations. -/
def crcStep (c : Word) (b : Byte) : Word := crcIters 8 (c ^^^ b.setWidth 16)

/-- The value the accumulator starts every computation from (R8, R112). -/
def crcInitial : Word := 0xFFFF#16

/-- `crc16(s) = foldl crc_step 0xFFFF s` (R113). -/
def crc16 (s : List Byte) : Word := s.foldl crcStep crcInitial

/-- A body with its checksum appended low byte first (R115, R131). -/
def withCrc (body : List Byte) : List Byte := body ++ le16 (crc16 body)

end Sys2Proof
end

