-- ==== Sys2Proof/Config.lean ====
section
/-! DEFINITION. The open parameters of 00_scope.md R9 and the free values. A configuration is plain
data that State carries and no step changes, so every statement over states holds for every choice of
the parameters (log entry 1). -/

namespace Sys2Proof

/-- `WMC_MODE` (R9, R142): how Write Multiple Coils lays out its coil values. -/
inductive WmcMode where
  | packed
  | literal
deriving DecidableEq, Repr

/-- Parameter `TransportError` (R9): which values beside the first one the transport's error type has.
No body, so nothing is known of the type but that it has a value (log entry 2). -/
opaque Config.isTransportError : Nat → Bool

/-- `TransportError` (R9, R214, 93_implementation_defined.md U9): a type the model takes as it comes,
opaque to the block, which only carries a value of it unchanged (R224). Its values are told apart by
names. -/
structure TransportError where
  name : Nat
  legal : name = 0 ∨ Config.isTransportError name = true
deriving DecidableEq, Repr

/-- The one value every choice of the type has. -/
def TransportError.first : TransportError := ⟨0, .inl rfl⟩

/-- The parameters FM leaves open (R9). -/
structure Config where
  /-- `WMC_MODE`. -/
  wmcMode : WmcMode
  /-- `ARGCOUNT_CODE`, as the 16-bit two's-complement value RES_CODE holds (R28). -/
  argCountCode : Word
  /-- `TXBUF_MAX`. -/
  txBufMax : Nat
  /-- `RXBUF_MAX`. -/
  rxBufMax : Nat
  /-- `NV_MAX`. -/
  nvMax : Nat
deriving DecidableEq, Repr

/-- The defaults of R9. -/
def Config.defaults : Config :=
  { wmcMode := .packed, argCountCode := 0, txBufMax := 256, rxBufMax := 256, nvMax := 2040 }

/-- The constraint column of R9: `ARGCOUNT_CODE ≤ 0` and not −1, −2, −3; `TXBUF_MAX ≥ 8`;
`RXBUF_MAX ≥ 5`. -/
def Config.ok (c : Config) : Bool :=
  decide (c.argCountCode.toInt ≤ 0) && c.argCountCode != 0xFFFF && c.argCountCode != 0xFFFE
    && c.argCountCode != 0xFFFD && decide (8 ≤ c.txBufMax) && decide (5 ≤ c.rxBufMax)

/-- Free value: what RES_CODE holds after an outcome that does not set it (44_exchange.md R218 "n/a",
93_implementation_defined.md section 2; log entry 4). -/
opaque Config.freeCode : Nat → Word

/-- Free value: what RES_MSG holds after an outcome that does not set it (log entry 4). -/
opaque Config.freeMsg : Nat → BitVec 4

/-- Free value: what RES_REFUSE holds after an outcome that does not set it (log entry 4). -/
opaque Config.freeRefuse : Nat → BitVec 3

/-- Free value: what REQ_FN latches when FN holds no value (log entry 5). -/
opaque Config.freeFn : Nat → Byte

/-- Free value: what REQ_RAW latches when RAW holds no value (log entry 5). -/
opaque Config.freeRaw : Nat → Bool

end Sys2Proof
end

