-- ==== Sys2Proof/Syntax.lean ====
section
/-! DEFINITION. The operations of the block, one constructor per row of spec/opcode_table.json
(30_encoding.md R86, R93), and the typed results of 00_scope.md R14. The raw flag is a command
register, not part of any encoding (R91, 95 section 2.2), and stands in State. -/

namespace Sys2Proof

/-- One row of the opcode table each. The 13 requests carry the operands of R13 after the station;
the 13 success responses and the exception response take theirs from the response buffer (R85, R166
to R179); the last six are the unit operations of R92. -/
inductive Instr where
  /-- Read Coils, 0x01 (R132). -/
  | rc (station : Byte) (start qty : Word)
  /-- Read Discrete Inputs, 0x02 (R133). -/
  | rdi (station : Byte) (start qty : Word)
  /-- Read Holding Registers, 0x03 (R134). -/
  | rhr (station : Byte) (start qty : Word)
  /-- Read Input Registers, 0x04 (R135). -/
  | rir (station : Byte) (start qty : Word)
  /-- Write Single Coil, 0x05 (R136). -/
  | wsc (station : Byte) (addr value : Word)
  /-- Write Single Register, 0x06 (R137). -/
  | wsr (station : Byte) (addr value : Word)
  /-- Read Exception Status, 0x07 (R138). -/
  | res (station : Byte)
  /-- Diagnostics, 0x08 (R139). -/
  | diag (station : Byte) (sub : Word) (data : List Word)
  /-- Get Comm Event Counter, 0x0B (R140). -/
  | gcec (station : Byte)
  /-- Get Comm Event Log, 0x0C (R141). -/
  | gcel (station : Byte)
  /-- Write Multiple Coils, 0x0F (R142); a coil argument is a whole `V[i]` (R143). -/
  | wmc (station : Byte) (start qty : Word) (coils : List Word)
  /-- Write Multiple Registers, 0x10 (R144). -/
  | wmr (station : Byte) (start qty : Word) (values : List Word)
  /-- Report Server ID, 0x11 (R145). -/
  | rsid (station : Byte)
  /-- Success response of RC (R166). -/
  | rcResponse
  /-- Success response of RDI (R167). -/
  | rdiResponse
  /-- Success response of RHR (R168). -/
  | rhrResponse
  /-- Success response of RIR (R169). -/
  | rirResponse
  /-- Success response of WSC (R170). -/
  | wscResponse
  /-- Success response of WSR (R171). -/
  | wsrResponse
  /-- Success response of RES (R172). -/
  | resResponse
  /-- Success response of DIAG (R173). -/
  | diagResponse
  /-- Success response of GCEC (R174). -/
  | gcecResponse
  /-- Success response of GCEL (R175). -/
  | gcelResponse
  /-- Success response of WMC (R176). -/
  | wmcResponse
  /-- Success response of WMR (R177). -/
  | wmrResponse
  /-- Success response of RSID (R178). -/
  | rsidResponse
  /-- The exception response of every operation (R83, R161, R179). -/
  | exceptionResponse
  /-- `CRC.INIT` (R112). -/
  | crcInit
  /-- `CRC.UPDATE b` (R111). -/
  | crcUpdate (b : Byte)
  /-- `CRC.HOLD` (R114). -/
  | crcHold
  /-- `XLT.LOOKUP c` (R200). -/
  | xltLookup (c : Byte)
  /-- `OPEN` (R222). -/
  | openLine
  /-- `CLOSE` (R223). -/
  | closeLine
deriving DecidableEq, Repr

/-- A decoded result (R14). -/
inductive Result where
  | bits (station function byteCount : Byte) (bits : List Byte)
  | regs (station function byteCount : Byte) (registers : List Word)
  | echo (station function : Byte) (address value : Word)
  | status (station function data : Byte)
  | counter (station function : Byte) (status eventCount : Word)
  | log (station function byteCount : Byte) (status eventCount messageCount : Word) (events : List Byte)
  | raw (frame : List Byte)
deriving DecidableEq, Repr

end Sys2Proof
end

