-- ==== Sys2Proof/Machine/State.lean ====
section
/-! DEFINITION. The state of the block (10_state.md R20), the inputs and outputs of its ports
(44_exchange.md R225) as plain data beside it, the reasons a step can stop, and the state after
reset (R34). -/

namespace Sys2Proof.Machine

/-- A byte-addressed buffer (20_memory.md R50): (index, byte) pairs, indices strictly rising. An
unlisted index holds no value (R34; log entry 9). -/
abbrev Memory := List Host.Cell

/-- The value file (R50): (index, element) pairs, indices strictly rising. An unlisted element is
unwritten (R22). -/
abbrev ValueFile := List (Nat × Word)

/-- The two byte spaces of R50. -/
inductive Space where
  | txb
  | rxb
deriving DecidableEq, Repr

/-- `PHASE` (R27). -/
inductive Phase where
  | idle
  | encode
  | send
  | receive
  | validate
  | done
deriving DecidableEq, Repr

/-- `RES_KIND` (R28). -/
inductive ResKind where
  | ok
  | localFailure
  | device
  | transport
  | refused
deriving DecidableEq, Repr

/-- The reasons of a refused outcome (00_scope.md R16, 60_exceptions.md R243). `busyStart` is the
machine's own refusal (`Refusal.busyStart`) and is never written to RES_REFUSE (log entry 7). -/
inductive Reason where
  | unknownFunction
  | unwrittenOperand
  | badCoilValue
  | byteCountOverflow
  | bufferOverflow
  | layoutMismatch
  | busyStart
deriving DecidableEq, Repr

/-- The failures of 60_exceptions.md R242. A transport failure of an exchange and one of OPEN or CLOSE
differ in what is captured (R218, R222). -/
inductive Failure where
  | argCount
  | tooShort
  | checkFails
  | illegalErrorCode
  | deviceException (e : Byte)
  | transportFailure (e : TransportError)
  | handleFailure (e : TransportError)
deriving DecidableEq, Repr

/-- How an operation ends (R15): `ok` for an exchange, `handleOk` for OPEN and CLOSE. -/
inductive Ending where
  | ok (r : Result)
  | handleOk
  | fail (f : Failure)
  | refused (r : Reason)
deriving DecidableEq, Repr

/-- What phase DONE is for (R27, R218, R222, R223; log entry 13). -/
inductive Pending where
  | nothing
  | opening
  | closing
  | ending (e : Ending)
deriving DecidableEq, Repr

/-- A host write to one command register (R21, R225). -/
inductive RegWrite where
  | stn (v : Byte)
  | fn (v : Byte)
  | a (v : Word)
  | b (v : Word)
  | raw (v : Bool)
  | nv (n : Nat)
  | value (i : Nat) (v : Word)
deriving DecidableEq, Repr

/-- An event on a host port (R225). -/
inductive HostEvent where
  | write (w : RegWrite)
  /-- `cmd_kind[1:0]`: 00 nothing, 01 start, 10 OPEN, 11 CLOSE (R92). -/
  | command (kind : BitVec 2)
  | crcPort (init en : Bool) (din : Byte)
  | xltPort (code : Byte)
  | rst
deriving DecidableEq, Repr

/-- When a host event lands: at once, before SEQ moves, or held back by the host until `busy` is 0 (R284).
The model has no input that lets some steps of an exchange pass first (log entry 6). -/
inductive HostInput where
  | now (e : HostEvent)
  | whenIdle (e : HostEvent)
deriving DecidableEq, Repr

/-- The transport's answer to `open`, `close` or `send` (R214). -/
inductive CallAnswer where
  | ok
  | err (e : TransportError)
deriving DecidableEq, Repr

/-- The transport's answer to `read` (R214, 90_conflicts.md C6). -/
inductive ReadAnswer where
  | bytes (r : List Byte)
  | err (e : TransportError)
deriving DecidableEq, Repr

/-- A call the block made on the transport (R214). -/
inductive TransportCall where
  | openLine
  | closeLine
  | send (frame : List Byte)
  | read
deriving DecidableEq, Repr

/-- The state: R20's elements in its order, then what the spec implies, then the model's own fields
(INVENTORY.md, State). -/
structure State where
  /-- `STN`; `none` is R22's "unwritten". -/
  stn : Option Byte
  /-- `FN`. -/
  fn : Option Byte
  /-- `A`. -/
  a : Option Word
  /-- `B`. -/
  b : Option Word
  /-- `RAW`. -/
  raw : Option Bool
  /-- `NV`. -/
  nv : Option Nat
  /-- `V[0..NV_MAX−1]`. -/
  v : ValueFile
  /-- `CRC`, also the port `crc_q` (R24). -/
  crc : Word
  /-- `REQ_FN` (R25). -/
  reqFn : Byte
  /-- `REQ_RAW` (R25). -/
  reqRaw : Bool
  /-- `TXB` (R26). -/
  txb : Memory
  /-- `TX_LEN`. -/
  txLen : Nat
  /-- `RXB` (R26). -/
  rxb : Memory
  /-- `RX_LEN`. -/
  rxLen : Nat
  /-- `PHASE` (R27). -/
  phase : Phase
  /-- `RES_VALID` (R28). -/
  resValid : Bool
  /-- `RES_KIND` (R28). -/
  resKind : ResKind
  /-- `RES_CODE` (R28). -/
  resCode : Word
  /-- `RES_MSG` (R203). -/
  resMsg : BitVec 4
  /-- `RES_REFUSE` (R243). -/
  resRefuse : BitVec 3
  /-- `REQ_CAP` (R246). -/
  reqCap : Bool
  /-- `RSP_CAP` (R246). -/
  rspCap : Bool
  /-- `XERR` (R224). -/
  xerr : TransportError
  /-- `XOPEN` (R30). -/
  xopen : Bool
  /-- What DONE is for; `nothing` outside DONE (log entry 13). -/
  pending : Pending
  /-- The open parameters (R9; log entry 1). -/
  cfg : Config
  /-- Free values drawn so far (log entry 4). -/
  free : Nat
  /-- What the host does next, oldest first (log entry 6). -/
  hostIn : List HostInput
  /-- The transport's answers to `open`, `close`, `send`, oldest first (log entry 6). -/
  lineAns : List CallAnswer
  /-- The transport's answers to `read`, oldest first (log entry 6). -/
  readAns : List ReadAnswer
  /-- The calls made on the transport, oldest first (log entry 15). -/
  calls : List TransportCall
  /-- The XLT port's output `xlt_id` (log entry 14). -/
  xltId : BitVec 4
  /-- The first refused outcome of the run, never cleared: from there on no claim about the chip follows
  from the run (R16, R243; log entry 7). -/
  refusal : Option Reason
deriving DecidableEq, Repr

/-- Why the machine stops with a fault. -/
inductive Fault where
  /-- Raised by a read of `TXB` or `RXB` at or beyond the valid length, or of a byte nothing has
  written (R51, R34). Safe: no run reaches it. -/
  | noSuchByte (sp : Space) (index : Nat)
  /-- Raised by a host write in IDLE to `V[i]` with `i ≥ NV_MAX`: the element does not exist (R50).
  Safe. -/
  | noSuchElement (index : Nat)
  /-- Raised by VALIDATE when REQ_FN is outside the catalogue: no decoder exists (R25). Safe: no run
  reaches it. -/
  | latchOutsideCatalogue (reqFn : Byte)
  /-- Raised by DONE when no call and no outcome is pending. Safe: no run reaches it. -/
  | nothingPending
deriving DecidableEq, Repr

/-- Why an instruction has no meaning. -/
inductive Refusal where
  /-- Raised by `exec` for an instruction without a meaning yet. Safe. -/
  | notModelled (mnemonic : String)
  /-- Raised by a start, OPEN or CLOSE while PHASE is not IDLE (R286: "A model marks the whole run
  refused from that point"). Safe. -/
  | busyStart
deriving DecidableEq, Repr

/-- What a step ends in. -/
abbrev StepResult := Host.Outcome State Fault Refusal

/-- What SEQ does next: run an operation of the table in a state, or something that is no operation of
the table (a register write, a start, `rst`, a transport answer, the writing of an outcome). -/
inductive Action where
  | run (i : Instr) (s : State)
  | answer (o : StepResult)

/-- The state after reset (R34, R280). The elements R34 leaves unspecified, and the model's own
fields, have the values log entries 1, 3, 4, 6, 7, 14 and 15 name. -/
def State.reset : State :=
  { stn := none, fn := none, a := none, b := none, raw := none, nv := none, v := []
    crc := 0xFFFF, reqFn := 0, reqRaw := false
    txb := [], txLen := 0, rxb := [], rxLen := 0
    phase := .idle, resValid := false, resKind := .ok, resCode := 0, resMsg := 0, resRefuse := 0
    reqCap := false, rspCap := false, xerr := TransportError.first, xopen := false
    pending := .nothing, cfg := Config.defaults, free := 0
    hostIn := [], lineAns := [], readAns := [], calls := [], xltId := 0, refusal := none }

end Sys2Proof.Machine
end

