-- ==== Sys2Proof/Machine/Flags.lean ====
section
/-! DEFINITION. The block has no arithmetic flags; its only status is the outcome (10_state.md R28).
Here stand the numeric encodings of the status registers, the exception-code table of unit XLT
(43_exception_lookup.md), and the outcome table of 44_exchange.md R218, column by column. -/

namespace Sys2Proof.Machine

/-- `PHASE` as its 3-bit value (R27). -/
def Phase.bits : Phase → BitVec 3
  | .idle => 0
  | .encode => 1
  | .send => 2
  | .receive => 3
  | .validate => 4
  | .done => 5

/-- `RES_KIND` as its 3-bit value (R28). -/
def ResKind.bits : ResKind → BitVec 3
  | .ok => 0
  | .localFailure => 1
  | .device => 2
  | .transport => 3
  | .refused => 4

/-- The value RES_REFUSE holds for a reason (R243). -/
def Reason.bits : Reason → BitVec 3
  | .unknownFunction => 1
  | .unwrittenOperand => 2
  | .badCoilValue => 3
  | .byteCountOverflow => 4
  | .bufferOverflow => 5
  | .layoutMismatch => 6
  | .busyStart => 7

/-- `XROM[c]` (R200): ten entries, everything else falls back to 0. -/
def xrom (c : Byte) : BitVec 4 :=
  match c.toNat with
  | 0x00 | 0x01 | 0x02 | 0x03 | 0x04 | 0x05 | 0x06 | 0x08 | 0x0A | 0x0B => c.setWidth 4
  | _ => 0

/-- The text of a message id (R200, R203); ids 7 and 9 are never produced. -/
def messageText (id : BitVec 4) : Option String :=
  match id.toNat with
  | 0 => some "Undefined failure code"
  | 1 => some "Illegal function"
  | 2 => some "Illegal data address"
  | 3 => some "Illegal data value"
  | 4 => some "Server device failure"
  | 5 => some "Acknowledge"
  | 6 => some "Server device busy"
  | 8 => some "Memory parity error"
  | 10 => some "Gateway path unavailable"
  | 11 => some "Gateway target device failed to respond"
  | 12 => some "Response length too short"
  | 13 => some "Error check fails"
  | 14 => some "Illegal error code"
  | 15 => some "Incorrect argument count"
  | _ => none

/-- The `RES_KIND` column of R218 (R242; R222 for OPEN and CLOSE). -/
def Ending.kind : Ending → ResKind
  | .ok _ => .ok
  | .handleOk => .ok
  | .fail .argCount => .localFailure
  | .fail .tooShort => .localFailure
  | .fail .checkFails => .localFailure
  | .fail .illegalErrorCode => .localFailure
  | .fail (.deviceException _) => .device
  | .fail (.transportFailure _) => .transport
  | .fail (.handleFailure _) => .transport
  | .refused _ => .refused

/-- The `RES_CODE` column of R218; `none` is its "n/a". -/
def Ending.code (cfg : Config) : Ending → Option Word
  | .fail .argCount => some cfg.argCountCode
  | .fail .tooShort => some 0xFFFF
  | .fail .checkFails => some 0xFFFE
  | .fail .illegalErrorCode => some 0xFFFD
  | .fail (.deviceException e) => some (e.setWidth 16)
  | .fail (.transportFailure _) => none
  | .fail (.handleFailure _) => none
  | .ok _ => none
  | .handleOk => none
  | .refused _ => none

/-- The `RES_MSG` column of R218. -/
def Ending.msg : Ending → Option (BitVec 4)
  | .fail .argCount => some 15
  | .fail .tooShort => some 12
  | .fail .checkFails => some 13
  | .fail .illegalErrorCode => some 14
  | .fail (.deviceException e) => some (xrom e)
  | .fail (.transportFailure _) => none
  | .fail (.handleFailure _) => none
  | .ok _ => none
  | .handleOk => none
  | .refused _ => none

/-- The reason R218's last row writes to `RES_REFUSE`. -/
def Ending.refuse : Ending → Option (BitVec 3)
  | .refused r => some r.bits
  | .ok _ => none
  | .handleOk => none
  | .fail _ => none

/-- The reason of a refused outcome (R16). -/
def Ending.reason : Ending → Option Reason
  | .refused r => some r
  | .ok _ => none
  | .handleOk => none
  | .fail _ => none

/-- The `REQ_CAP` column of R218 (R246): every failure of an exchange but ArgCount. -/
def Ending.reqCap : Ending → Bool
  | .fail .argCount => false
  | .fail .tooShort => true
  | .fail .checkFails => true
  | .fail .illegalErrorCode => true
  | .fail (.deviceException _) => true
  | .fail (.transportFailure _) => true
  | .fail (.handleFailure _) => false
  | .ok _ => false
  | .handleOk => false
  | .refused _ => false

/-- The `RSP_CAP` column of R218 (R246): the failures met after a response was read. -/
def Ending.rspCap : Ending → Bool
  | .fail .argCount => false
  | .fail .tooShort => true
  | .fail .checkFails => true
  | .fail .illegalErrorCode => true
  | .fail (.deviceException _) => true
  | .fail (.transportFailure _) => false
  | .fail (.handleFailure _) => false
  | .ok _ => false
  | .handleOk => false
  | .refused _ => false

/-- The transport error an outcome carries to `XERR` (R218, R222, R224). -/
def Ending.cause : Ending → Option TransportError
  | .fail (.transportFailure e) => some e
  | .fail (.handleFailure e) => some e
  | .fail .argCount => none
  | .fail .tooShort => none
  | .fail .checkFails => none
  | .fail .illegalErrorCode => none
  | .fail (.deviceException _) => none
  | .ok _ => none
  | .handleOk => none
  | .refused _ => none

end Sys2Proof.Machine
end

