-- ==== Sys2Proof/Machine/Ops.lean ====
section
/-! DEFINITION. The named operations over the buffers and registers (00_scope.md R12), the CRC unit
(40_crc.md), and the one way an operation ends: into DONE with an outcome, and from DONE to IDLE with
the outcome registers written (44_exchange.md R218, 60_exceptions.md R246, R248). -/

namespace Sys2Proof.Machine

/-! ## Sparse data: the buffers and the value file -/

/-- What a sparse list holds at an index; `none` where nothing is listed. -/
def Sparse.read {α : Type} : List (Nat × α) → Nat → Option α
  | [], _ => none
  | (i, x) :: m, k => if i = k then some x else Sparse.read m k

/-- Write one element, keeping the indices strictly rising. -/
def Sparse.write {α : Type} : List (Nat × α) → Nat → α → List (Nat × α)
  | [], k, y => [(k, y)]
  | (i, x) :: m, k, y =>
    if k < i then (k, y) :: (i, x) :: m
    else if k = i then (k, y) :: m
    else (i, x) :: Sparse.write m k y

/-- Indices strictly rising: the canonical form (an unlisted index holds no value, so no entry can
equal what it reads as). -/
def Sparse.wf {α : Type} : List (Nat × α) → Bool
  | [] => true
  | [_] => true
  | (i, _) :: (j, y) :: m => decide (i < j) && Sparse.wf ((j, y) :: m)

/-- The canonical form of a buffer. -/
def Memory.wf (m : Memory) : Bool := Sparse.wf m

/-- The canonical form of the value file. -/
def ValueFile.wf (v : ValueFile) : Bool := Sparse.wf v

/-- Bytes stored at consecutive indices, in order (R131, R215). -/
def writeBytes (m : Memory) (k : Nat) : List Byte → Memory
  | [] => m
  | x :: xs => writeBytes (Sparse.write m k x) (k + 1) xs

/-! ## Reading the buffers (R12 MemRead, MemReadLE) -/

/-- The contents of a space. -/
def State.space (s : State) : Space → Memory
  | .txb => s.txb
  | .rxb => s.rxb

/-- The valid length of a space (R50). -/
def State.validLen (s : State) : Space → Nat
  | .txb => s.txLen
  | .rxb => s.rxLen

/-- `MemRead(S, a, 1)`; a read at or beyond the valid length, or of a byte nothing has written, faults
(R51, R34). -/
def memReadByte (sp : Space) (a : Nat) (s : State) : Except Fault Byte :=
  if a < s.validLen sp then
    match Sparse.read (s.space sp) a with
    | some x => .ok x
    | none => .error (.noSuchByte sp a)
  else .error (.noSuchByte sp a)

/-- `MemRead(S, a, 2)`: high byte at the lower index (R53). -/
def memReadBe16 (sp : Space) (a : Nat) (s : State) : Except Fault Word :=
  match memReadByte sp a s, memReadByte sp (a + 1) s with
  | .ok hi, .ok lo => .ok (joinBytes hi lo)
  | .error f, _ => .error f
  | .ok _, .error f => .error f

/-- `MemReadLE(S, a, 2)`: low byte at the lower index (R54). -/
def memReadLe16 (sp : Space) (a : Nat) (s : State) : Except Fault Word :=
  match memReadByte sp a s, memReadByte sp (a + 1) s with
  | .ok lo, .ok hi => .ok (joinBytes hi lo)
  | .error f, _ => .error f
  | .ok _, .error f => .error f

/-- `n` bytes from index `a` on. -/
def memReadBytes (sp : Space) (a : Nat) : Nat → State → Except Fault (List Byte)
  | 0, _ => .ok []
  | n + 1, s =>
    match memReadByte sp a s, memReadBytes sp (a + 1) n s with
    | .ok x, .ok xs => .ok (x :: xs)
    | .error f, _ => .error f
    | .ok _, .error f => .error f

/-- `n` big-endian 16-bit fields from index `a` on (R168). -/
def memReadWords (sp : Space) (a : Nat) : Nat → State → Except Fault (List Word)
  | 0, _ => .ok []
  | n + 1, s =>
    match memReadBe16 sp a s, memReadWords sp (a + 2) n s with
    | .ok x, .ok xs => .ok (x :: xs)
    | .error f, _ => .error f
    | .ok _, .error f => .error f

/-- The request frame `TXB[0..TX_LEN)` (R26). -/
def txFrame (s : State) : Except Fault (List Byte) := memReadBytes .txb 0 s.txLen s

/-- The response `RXB[0..RX_LEN)` (R26). -/
def rxFrame (s : State) : Except Fault (List Byte) := memReadBytes .rxb 0 s.rxLen s

/-- Go on with what was read, or fault. -/
def reading {α : Type} (x : Except Fault α) (k : α → StepResult) : StepResult :=
  match x with
  | .ok v => k v
  | .error f => .fault f

/-! ## The CRC unit (40_crc.md) -/

/-- `CRC.INIT`: `CRC <- 0xFFFF` (R112). -/
def opCrcInit (s : State) : State := { s with crc := crcInitial }

/-- `CRC.UPDATE b`: `CRC <- crc_step(CRC, b)` (R111). -/
def opCrcUpdate (x : Byte) (s : State) : State := { s with crc := crcStep s.crc x }

/-- `CRC.INIT`, then `CRC.UPDATE` for each byte in order: how ENC and DEC compute `crc16` (R113, R119). -/
def crcOver (bytes : List Byte) (s : State) : State :=
  bytes.foldl (fun t x => opCrcUpdate x t) (opCrcInit s)

/-! ## How an operation ends -/

/-- The end of an exchange is met: its outcome waits in DONE (R212, R213, R215, R217; first failure
met, R245). Nothing else of the block changes (R246); a refused outcome marks the whole run (R16, log
entry 7). -/
def endWith (e : Ending) (s : State) : State :=
  { s with phase := .done, pending := .ending e, refusal := s.refusal.or e.reason }

/-- DONE: write the outcome registers of R218, then `RES_VALID <- 1` and return to IDLE (R246, R248).
A RES_* field the outcome does not set gets a free value (log entry 4); XERR changes only with a
transport failure (log entry 18). -/
def finish (e : Ending) (s : State) : State :=
  { s with
    phase := .idle
    pending := .nothing
    resValid := true
    resKind := e.kind
    resCode := (e.code s.cfg).getD (Config.freeCode s.free)
    resMsg := e.msg.getD (Config.freeMsg s.free)
    resRefuse := e.refuse.getD (Config.freeRefuse s.free)
    reqCap := e.reqCap
    rspCap := e.rspCap
    xerr := e.cause.getD s.xerr
    free := s.free + 1 }

/-- The outcome registers R211 and R222 clear when an operation begins. -/
def clearOutcome (s : State) : State :=
  { s with resValid := false, reqCap := false, rspCap := false }

/-- `busy` is `PHASE ≠ IDLE` (R33). -/
def busy (s : State) : Bool := s.phase != .idle

end Sys2Proof.Machine
end

