-- ==== Sys2Proof/Machine/Ports.lean ====
section
/-! DEFINITION. The unit operations a host reaches through the block's own ports (30_encoding.md R92,
44_exchange.md R225): the CRC port, the XLT port, OPEN and CLOSE. -/

namespace Sys2Proof.Machine

/-- The CRC port's controls are ignored while an exchange runs (40_crc.md R120, R290). -/
def onCrcPort (op : State → State) (s : State) : StepResult :=
  if busy s then .next s else .next (op s)

/-- CRC.INIT (R112). -/
def execCrcInit (s : State) : StepResult := onCrcPort opCrcInit s

/-- CRC.UPDATE b (R111). -/
def execCrcUpdate (x : Byte) (s : State) : StepResult := onCrcPort (opCrcUpdate x) s

/-- CRC.HOLD: `CRC <- CRC` (R114). -/
def execCrcHold (s : State) : StepResult := onCrcPort id s

/-- XLT.LOOKUP c: `xlt_id` becomes `XROM[c]`; usable any time (R200, R225; log entry 14). -/
def execXltLookup (c : Byte) (s : State) : StepResult := .next { s with xltId := xrom c }

/-- R222 and R223 up to the transport call: `RES_VALID`, `REQ_CAP`, `RSP_CAP` cleared, `PHASE <- DONE`
with the call pending; refused while busy (R286). -/
def beginHandle (p : Pending) (s : State) : StepResult :=
  if busy s then .refused .busyStart
  else .next { clearOutcome s with phase := .done, pending := p }

/-- OPEN (R222). -/
def execOpenLine (s : State) : StepResult := beginHandle .opening s

/-- CLOSE (R223). -/
def execCloseLine (s : State) : StepResult := beginHandle .closing s

end Sys2Proof.Machine
end

