-- ==== Sys2Proof/WellFormed.lean ====
section
/-! DEFINITION. Which instructions are well formed, that is which commands have a frame whatever the
buffers' capacities (41_encode.md R130 checks 3 to 5). Each way to fail has a name. An ill-formed
command still runs: its meaning ends in the failure or refusal of the same name. -/

namespace Sys2Proof

/-- Why a command is ill formed. -/
inductive IllFormed where
  /-- The number of values differs from `qty` (R148). -/
  | argCount
  /-- A coil argument out of range (R143). -/
  | coilValue
  /-- `byte_count` above 255 (R146). -/
  | byteCount
deriving DecidableEq, Repr

/-- R143: a coil argument fits a byte in both modes and is 0 or 1 in `packed` mode. -/
def coilInRange (mode : WmcMode) (c : Word) : Bool :=
  match mode with
  | .packed => c == 0 || c == 1
  | .literal => decide (c.toNat < 256)

/-- The first check of R130 items 3 to 5 that an instruction fails. -/
def illFormed (mode : WmcMode) (i : Instr) : Option IllFormed :=
  match i with
  | .wmc _ _ qty coils =>
    if coils.length ≠ qty.toNat then some .argCount
    else if coils.all (coilInRange mode) = false then some .coilValue
    else if (qty.toNat + 7) / 8 > 255 then some .byteCount
    else none
  | .wmr _ _ qty values =>
    if values.length ≠ qty.toNat then some .argCount
    else if 2 * qty.toNat > 255 then some .byteCount
    else none
  | .rc .. | .rdi .. | .rhr .. | .rir .. | .wsc .. | .wsr .. | .res .. | .diag .. | .gcec ..
  | .gcel .. | .rsid .. => none
  | .rcResponse | .rdiResponse | .rhrResponse | .rirResponse | .wscResponse | .wsrResponse
  | .resResponse | .diagResponse | .gcecResponse | .gcelResponse | .wmcResponse | .wmrResponse
  | .rsidResponse | .exceptionResponse => none
  | .crcInit | .crcUpdate _ | .crcHold | .xltLookup _ | .openLine | .closeLine => none

/-- No check fails. -/
def wellFormed (mode : WmcMode) (i : Instr) : Bool := (illFormed mode i).isNone

end Sys2Proof
end

