-- ==== Sys2Proof/Decode.lean ====
section
/-! DEFINITION. Decoding and encoding. The block is handed operations through its ports, never through
an instruction memory (10_state.md R27), so what is decoded is what a port presents: the command
registers (30_encoding.md R86), the function bytes of a response (R87), the CRC, XLT and command-kind
ports (R92). Below that stand the frame formats of R80 to R82, written from the tables, and the reader
of request frames that inverts them (log entry 19). -/

namespace Sys2Proof

/-- What a port presents to the decoder. -/
inductive PortWord where
  /-- The command registers of R21 at an exchange's start. -/
  | command (fn stn : Byte) (a b : Word) (vals : List Word)
  /-- Frame byte 1 of a response, under the latched `REQ_FN` (R87). -/
  | response (reqFn f : Byte)
  /-- The CRC port's controls and data (R92). -/
  | crc (init en : Bool) (din : Byte)
  /-- The XLT port's code (R92). -/
  | xlt (code : Byte)
  /-- `cmd_kind[1:0]` (R92). -/
  | cmd (kind : BitVec 2)
deriving DecidableEq, Repr

/-- Why a port word or a frame is no instruction. -/
inductive Reject where
  /-- The function code is not in the catalogue (R88). -/
  | unknownFunction (fn : Byte)
  /-- A response's function byte is neither `REQ_FN` nor `REQ_FN + 0x80` (R87). -/
  | illegalFunctionByte (f : Byte)
  /-- `REQ_FN` itself is not in the catalogue: no decoder exists for it (R25). -/
  | latchOutsideCatalogue (reqFn : Byte)
  /-- `cmd_kind = 00`: no command (R92). -/
  | noCommand
  /-- `cmd_kind = 01`: the operation is in the command registers, not on this port (R92). -/
  | startOfExchange
  /-- A request frame without room for station, function and checksum (R60). -/
  | frameTooShort
  /-- A request frame whose checksum is wrong (R131). -/
  | badChecksum
  /-- A request frame whose payload is not of its function's format (R80). -/
  | badPayload (fn : Byte)
deriving DecidableEq, Repr

/-- Is this one of the 13 codes of R86? -/
def catalogued (fn : Byte) : Bool :=
  match fn.toNat with
  | 0x01 | 0x02 | 0x03 | 0x04 | 0x05 | 0x06 | 0x07 | 0x08 | 0x0B | 0x0C | 0x0F | 0x10 | 0x11 => true
  | _ => false

/-- The function-code map of R86, mask `0xFF`. -/
def decodeCommand (fn stn : Byte) (a b : Word) (vals : List Word) : Except Reject Instr :=
  match fn.toNat with
  | 0x01 => .ok (.rc stn a b)
  | 0x02 => .ok (.rdi stn a b)
  | 0x03 => .ok (.rhr stn a b)
  | 0x04 => .ok (.rir stn a b)
  | 0x05 => .ok (.wsc stn a b)
  | 0x06 => .ok (.wsr stn a b)
  | 0x07 => .ok (.res stn)
  | 0x08 => .ok (.diag stn a vals)
  | 0x0B => .ok (.gcec stn)
  | 0x0C => .ok (.gcel stn)
  | 0x0F => .ok (.wmc stn a b vals)
  | 0x10 => .ok (.wmr stn a b vals)
  | 0x11 => .ok (.rsid stn)
  | _ => .error (.unknownFunction fn)

/-- The decoder R86 selects for a success response. -/
def decodeSuccess (reqFn : Byte) : Except Reject Instr :=
  match reqFn.toNat with
  | 0x01 => .ok .rcResponse
  | 0x02 => .ok .rdiResponse
  | 0x03 => .ok .rhrResponse
  | 0x04 => .ok .rirResponse
  | 0x05 => .ok .wscResponse
  | 0x06 => .ok .wsrResponse
  | 0x07 => .ok .resResponse
  | 0x08 => .ok .diagResponse
  | 0x0B => .ok .gcecResponse
  | 0x0C => .ok .gcelResponse
  | 0x0F => .ok .wmcResponse
  | 0x10 => .ok .wmrResponse
  | 0x11 => .ok .rsidResponse
  | _ => .error (.latchOutsideCatalogue reqFn)

/-- Classification of a response's function byte (R87). The sum `REQ_FN + 0x80` is a natural number
(R85: computed without overflow). -/
def decodeResponse (reqFn f : Byte) : Except Reject Instr :=
  if f = reqFn then decodeSuccess reqFn
  else if f.toNat = reqFn.toNat + 0x80 then .ok .exceptionResponse
  else .error (.illegalFunctionByte f)

/-- The CRC port's controls `{crc_init, crc_en}`: `1x`, `01`, `00` (R92). -/
def decodeCrcPort (init en : Bool) (din : Byte) : Instr :=
  match init, en with
  | true, _ => .crcInit
  | false, true => .crcUpdate din
  | false, false => .crcHold

/-- `cmd_kind[1:0]` (R92). -/
def decodeCmdKind (kind : BitVec 2) : Except Reject Instr :=
  match kind.toNat with
  | 0 => .error .noCommand
  | 1 => .error .startOfExchange
  | 2 => .ok .openLine
  | _ => .ok .closeLine

/-- The decoder: total, rejecting by name. -/
def decode : PortWord → Except Reject Instr
  | .command fn stn a b vals => decodeCommand fn stn a b vals
  | .response reqFn f => decodeResponse reqFn f
  | .crc init en din => .ok (decodeCrcPort init en din)
  | .xlt code => .ok (.xltLookup code)
  | .cmd kind => decodeCmdKind kind

/-- The port word of an instruction, from R86, R87 and R92. A register the operation does not read
(10_state.md R23) is given as 0; the exception response is shown under `REQ_FN = 0x01`. -/
def encode : Instr → PortWord
  | .rc stn a b => .command 0x01 stn a b []
  | .rdi stn a b => .command 0x02 stn a b []
  | .rhr stn a b => .command 0x03 stn a b []
  | .rir stn a b => .command 0x04 stn a b []
  | .wsc stn a b => .command 0x05 stn a b []
  | .wsr stn a b => .command 0x06 stn a b []
  | .res stn => .command 0x07 stn 0 0 []
  | .diag stn a vals => .command 0x08 stn a 0 vals
  | .gcec stn => .command 0x0B stn 0 0 []
  | .gcel stn => .command 0x0C stn 0 0 []
  | .wmc stn a b vals => .command 0x0F stn a b vals
  | .wmr stn a b vals => .command 0x10 stn a b vals
  | .rsid stn => .command 0x11 stn 0 0 []
  | .rcResponse => .response 0x01 0x01
  | .rdiResponse => .response 0x02 0x02
  | .rhrResponse => .response 0x03 0x03
  | .rirResponse => .response 0x04 0x04
  | .wscResponse => .response 0x05 0x05
  | .wsrResponse => .response 0x06 0x06
  | .resResponse => .response 0x07 0x07
  | .diagResponse => .response 0x08 0x08
  | .gcecResponse => .response 0x0B 0x0B
  | .gcelResponse => .response 0x0C 0x0C
  | .wmcResponse => .response 0x0F 0x0F
  | .wmrResponse => .response 0x10 0x10
  | .rsidResponse => .response 0x11 0x11
  | .exceptionResponse => .response 0x01 0x81
  | .crcInit => .crc true false 0
  | .crcUpdate b => .crc false true b
  | .crcHold => .crc false false 0
  | .xltLookup c => .xlt c
  | .openLine => .cmd 2
  | .closeLine => .cmd 3

/-! ## Request frames (R80) -/

/-- Eight coils or fewer as one byte, the first in bit 0, missing ones 0 (R84 (e), R142). -/
def packBits : List Word → Byte
  | [] => 0
  | c :: cs => (loByte c &&& 1) ||| (packBits cs <<< 1)

/-- `n` packed bytes of a coil sequence, coil `i` in bit `i mod 8` of byte `i div 8` (R84 (e)). -/
def packBytes : Nat → List Word → List Byte
  | 0, _ => []
  | n + 1, cs => packBits (cs.take 8) :: packBytes n (cs.drop 8)

/-- The coil data of Q-WMC (R80): m bytes, by mode. -/
def coilData (mode : WmcMode) (qty : Word) (coils : List Word) : List Byte :=
  match mode with
  | .packed => packBytes ((qty.toNat + 7) / 8) coils
  | .literal => coils.map loByte

/-- The body (frame without checksum) of a request row; `none` for the other rows (R80). -/
def requestBody (mode : WmcMode) : Instr → Option (List Byte)
  | .rc stn a b => some ([stn, 0x01] ++ be16 a ++ be16 b)
  | .rdi stn a b => some ([stn, 0x02] ++ be16 a ++ be16 b)
  | .rhr stn a b => some ([stn, 0x03] ++ be16 a ++ be16 b)
  | .rir stn a b => some ([stn, 0x04] ++ be16 a ++ be16 b)
  | .wsc stn a b => some ([stn, 0x05] ++ be16 a ++ be16 b)
  | .wsr stn a b => some ([stn, 0x06] ++ be16 a ++ be16 b)
  | .res stn => some [stn, 0x07]
  | .diag stn sub data => some ([stn, 0x08] ++ be16 sub ++ be16s data)
  | .gcec stn => some [stn, 0x0B]
  | .gcel stn => some [stn, 0x0C]
  | .wmc stn a qty coils => some ([stn, 0x0F] ++ be16 a ++ be16 qty
      ++ [BitVec.ofNat 8 ((qty.toNat + 7) / 8)] ++ coilData mode qty coils)
  | .wmr stn a qty values => some ([stn, 0x10] ++ be16 a ++ be16 qty
      ++ [BitVec.ofNat 8 (2 * qty.toNat)] ++ be16s values)
  | .rsid stn => some [stn, 0x11]
  | .rcResponse | .rdiResponse | .rhrResponse | .rirResponse | .wscResponse | .wsrResponse
  | .resResponse | .diagResponse | .gcecResponse | .gcelResponse | .wmcResponse | .wmrResponse
  | .rsidResponse | .exceptionResponse => none
  | .crcInit | .crcUpdate _ | .crcHold | .xltLookup _ | .openLine | .closeLine => none

/-- The whole request frame of a request row: body, then its checksum low byte first (R80, R131). -/
def requestFrame (mode : WmcMode) (i : Instr) : Option (List Byte) :=
  (requestBody mode i).map withCrc

/-- The eight coil values a packed byte stands for (R84 (e)). -/
def unpackByte (b : Byte) : List Word :=
  [0, 1, 2, 3, 4, 5, 6, 7].map fun k => if b.getLsbD k then 1 else 0

/-- The coil arguments a Q-WMC payload stands for. -/
def coilsOf (mode : WmcMode) (qty : Word) (data : List Byte) : List Word :=
  match mode with
  | .packed => (data.flatMap unpackByte).take qty.toNat
  | .literal => data.map (BitVec.setWidth 16)

/-- Format Q-WMC read back: exactly the payloads the encoder makes. -/
def parseCoils (mode : WmcMode) (stn : Byte) (a qty : Word) (bc : Byte) (data : List Byte) :
    Except Reject Instr :=
  let coils := coilsOf mode qty data
  if coils.length = qty.toNat ∧ bc.toNat = (qty.toNat + 7) / 8 ∧ coilData mode qty coils = data then
    .ok (.wmc stn a qty coils)
  else .error (.badPayload 0x0F)

/-- Format Q-WMR read back. -/
def parseValues (stn : Byte) (a qty : Word) (bc : Byte) (data : List Byte) : Except Reject Instr :=
  match wordsOf data with
  | some values =>
    if values.length = qty.toNat ∧ bc.toNat = 2 * qty.toNat then .ok (.wmr stn a qty values)
    else .error (.badPayload 0x10)
  | none => .error (.badPayload 0x10)

/-- A request body read back by its function byte (R80, R86). -/
def parseBody (mode : WmcMode) (stn fn : Byte) (payload : List Byte) : Except Reject Instr :=
  match fn.toNat, payload with
  | 0x08, s1 :: s0 :: rest =>
    match wordsOf rest with
    | some data => .ok (.diag stn (joinBytes s1 s0) data)
    | none => .error (.badPayload fn)
  | 0x0F, a1 :: a0 :: q1 :: q0 :: bc :: data =>
    parseCoils mode stn (joinBytes a1 a0) (joinBytes q1 q0) bc data
  | 0x10, a1 :: a0 :: q1 :: q0 :: bc :: data =>
    parseValues stn (joinBytes a1 a0) (joinBytes q1 q0) bc data
  | 0x07, [] | 0x0B, [] | 0x0C, [] | 0x11, [] => decodeCommand fn stn 0 0 []
  | 0x01, [a1, a0, b1, b0] | 0x02, [a1, a0, b1, b0] | 0x03, [a1, a0, b1, b0]
  | 0x04, [a1, a0, b1, b0] | 0x05, [a1, a0, b1, b0] | 0x06, [a1, a0, b1, b0] =>
    decodeCommand fn stn (joinBytes a1 a0) (joinBytes b1 b0) []
  | _, _ => if catalogued fn then .error (.badPayload fn) else .error (.unknownFunction fn)

/-- The reader of request frames, total on any bytes. -/
def parseRequest (mode : WmcMode) (frame : List Byte) : Except Reject Instr :=
  let body := frame.take (frame.length - 2)
  match body with
  | stn :: fn :: payload =>
    if frame.drop (frame.length - 2) = le16 (crc16 body) then parseBody mode stn fn payload
    else .error .badChecksum
  | _ => .error .frameTooShort

/-! ## Response frames (R82): what a device sends for a result -/

/-- The body of the success response that carries a structured result; the frame itself for a raw
one (R82). -/
def Result.body : Result → List Byte
  | .bits stn fn bc octets => [stn, fn, bc] ++ octets
  | .regs stn fn bc registers => [stn, fn, bc] ++ be16s registers
  | .echo stn fn address value => [stn, fn] ++ be16 address ++ be16 value
  | .status stn fn data => [stn, fn, data]
  | .counter stn fn st eventCount => [stn, fn] ++ be16 st ++ be16 eventCount
  | .log stn fn bc st eventCount messageCount events =>
    [stn, fn, bc] ++ be16 st ++ be16 eventCount ++ be16 messageCount ++ events
  | .raw frame => frame

/-- The success response frame of a structured result. -/
def Result.frame (r : Result) : List Byte := withCrc r.body

/-! ## The table's numbering -/

/-- A command-register image read from a table word: byte 0 is the function byte (the row's bits 7..0),
then the station, `A` and `B` high byte first; no values (log entry 16). -/
def commandOfTableWord (w : Nat) : PortWord :=
  .command (BitVec.ofNat 8 w) (BitVec.ofNat 8 (w >>> 8))
    (joinBytes (BitVec.ofNat 8 (w >>> 16)) (BitVec.ofNat 8 (w >>> 24)))
    (joinBytes (BitVec.ofNat 8 (w >>> 32)) (BitVec.ofNat 8 (w >>> 40))) []

/-- What the port presents for a table word: a function byte with bit 7 set is an exception response
(R83), any other selects a request (R86). A success-response row has the same byte as its request row
and is only told apart by the phase (R93: "given that the same code was requested"). -/
def portOfTableWord (nbits w : Nat) : PortWord :=
  let v := w % 2 ^ nbits
  let f := BitVec.ofNat 8 v
  if f.getLsbD 7 then .response (f &&& 0x7F) f else commandOfTableWord v

/-- The instruction the decoder reads from a table word. -/
def decodeTableWord (nbits w : Nat) : Option Instr := (decode (portOfTableWord nbits w)).toOption

end Sys2Proof
end

