-- ==== Sys2Proof/Machine/Operands.lean ====
section
/-! DEFINITION. The command registers as operands: the host's writes (10_state.md R21) and what each
operation reads of them at its start (R22, R23). -/

namespace Sys2Proof.Machine

/-- The write itself (R21). `V[i]` with `i ≥ NV_MAX` does not exist (R50; log entry 12). -/
def putReg (w : RegWrite) (s : State) : StepResult :=
  match w with
  | .stn v => .next { s with stn := some v }
  | .fn v => .next { s with fn := some v }
  | .a v => .next { s with a := some v }
  | .b v => .next { s with b := some v }
  | .raw v => .next { s with raw := some v }
  | .nv n => .next { s with nv := some n }
  | .value i v =>
    if i < s.cfg.nvMax then .next { s with v := Sparse.write s.v i v }
    else .fault (.noSuchElement i)

/-- A host write: taken in IDLE, ignored in any other phase (R21, R286). -/
def writeReg (w : RegWrite) (s : State) : StepResult := if busy s then .next s else putReg w s

/-- Does the operation read `A` (R23)? -/
def readsA (fn : Byte) : Bool :=
  match fn.toNat with
  | 0x01 | 0x02 | 0x03 | 0x04 | 0x05 | 0x06 | 0x08 | 0x0F | 0x10 => true
  | _ => false

/-- Does the operation read `B` (R23)? -/
def readsB (fn : Byte) : Bool :=
  match fn.toNat with
  | 0x01 | 0x02 | 0x03 | 0x04 | 0x05 | 0x06 | 0x0F | 0x10 => true
  | _ => false

/-- Does the operation read `NV` and `V[0..NV)` (R23)? -/
def readsValues (fn : Byte) : Bool :=
  match fn.toNat with
  | 0x08 | 0x0F | 0x10 => true
  | _ => false

/-- A register the operation reads must have been written (R22); one it does not read counts as 0 and
is not looked at. -/
def operand (needed : Bool) (r : Option Word) : Except Reason Word :=
  if needed then
    match r with
    | some x => .ok x
    | none => .error .unwrittenOperand
  else .ok 0

/-- `V[k], …` for `n` elements. An element past `NV_MAX` does not exist: it is given as 0, and the
operation is refused for the count (R147; log entry 11). -/
def elements (cap : Nat) (v : ValueFile) (k : Nat) : Nat → Except Reason (List Word)
  | 0 => .ok []
  | n + 1 =>
    match (if k < cap then Sparse.read v k else some 0), elements cap v (k + 1) n with
    | none, _ => .error .unwrittenOperand
    | some _, .error r => .error r
    | some x, .ok xs => .ok (x :: xs)

/-- `V[0..NV)` (R23). -/
def valueOperands (needed : Bool) (s : State) : Except Reason (List Word) :=
  if needed then
    match s.nv with
    | none => .error .unwrittenOperand
    | some n => elements s.cfg.nvMax s.v 0 n
  else .ok []

/-- Checks (1) and (2) of R130 and the command the registers hold: `FN` in the catalogue, else
UnknownFunction; every register the operation reads written, else UnwrittenOperand. An unwritten FN
holds no value, so it is the unwritten register that refuses (log entry 5). -/
def commandOperands (s : State) : Except Reason PortWord :=
  match s.fn with
  | none => .error .unwrittenOperand
  | some fn =>
    if catalogued fn then
      match s.stn, s.raw, operand (readsA fn) s.a, operand (readsB fn) s.b,
        valueOperands (readsValues fn) s with
      | some stn, some _, .ok a, .ok b, .ok vals => .ok (.command fn stn a b vals)
      | _, _, _, _, _ => .error .unwrittenOperand
    else .error .unknownFunction

end Sys2Proof.Machine
end

