-- ==== Sys2Proof/Machine/Requests.lean ====
section
/-! DEFINITION. Unit ENC (41_encode.md): the meaning of the 13 request rows. A request's step is FM's
step 1 in phase ENCODE (44_exchange.md R212): its own checks in R130's order, then the frame in TXB
with its checksum and `PHASE <- SEND`, or an outcome and `PHASE <- DONE`. -/

namespace Sys2Proof.Machine

/-- R131: the body byte by byte from index 0, `crc16` of it by the CRC unit, the two checksum bytes
low byte first, `TX_LEN`; then `PHASE <- SEND` (R212). -/
def storeFrame (body : List Byte) (s : State) : State :=
  let t := crcOver body { s with txb := writeBytes s.txb 0 body }
  { t with
    txb := writeBytes t.txb body.length [loByte t.crc, hiByte t.crc]
    txLen := body.length + 2
    phase := .send }

/-- Check (6) of R130, then the frame. `n` is the number of values supplied (R147). -/
def emit (n : Nat) (body : List Byte) (s : State) : StepResult :=
  if body.length + 2 > s.cfg.txBufMax ∨ n > s.cfg.nvMax then
    .next (endWith (.refused .bufferOverflow) s)
  else .next (storeFrame body s)

/-- Format Q-AQ and Q-AV (R80): two 16-bit operands. -/
def emitTwo (fn station : Byte) (x y : Word) (s : State) : StepResult :=
  emit 0 ([station, fn] ++ be16 x ++ be16 y) s

/-- Format Q-N (R80): no payload. -/
def emitNone (fn station : Byte) (s : State) : StepResult := emit 0 [station, fn] s

/-- R143: a coil argument the mode does not admit. -/
def badCoil (mode : WmcMode) (c : Word) : Bool :=
  decide (c.toNat ≥ 256) || (mode == .packed && c != 0 && c != 1)

/-- R142's loop: `data[i div 8] <- data[i div 8] | (c_i << (i mod 8))` from coil `i` on. -/
def orCoils : List Word → Nat → List Byte → List Byte
  | [], _, data => data
  | c :: cs, i, data =>
    orCoils cs (i + 1) (data.modify (i / 8) (fun d => d ||| (loByte c <<< (i % 8))))

/-- The coil data of R142 by mode. -/
def coilBytes (mode : WmcMode) (bc : Nat) (coils : List Word) : List Byte :=
  match mode with
  | .packed => orCoils coils 0 (List.replicate bc 0)
  | .literal => coils.map loByte

/-- RC (R132). -/
def execRc (station : Byte) (start qty : Word) (s : State) : StepResult :=
  emitTwo 0x01 station start qty s

/-- RDI (R133). -/
def execRdi (station : Byte) (start qty : Word) (s : State) : StepResult :=
  emitTwo 0x02 station start qty s

/-- RHR (R134). -/
def execRhr (station : Byte) (start qty : Word) (s : State) : StepResult :=
  emitTwo 0x03 station start qty s

/-- RIR (R135). -/
def execRir (station : Byte) (start qty : Word) (s : State) : StepResult :=
  emitTwo 0x04 station start qty s

/-- WSC (R136): the value is passed through, not checked. -/
def execWsc (station : Byte) (addr value : Word) (s : State) : StepResult :=
  emitTwo 0x05 station addr value s

/-- WSR (R137). -/
def execWsr (station : Byte) (addr value : Word) (s : State) : StepResult :=
  emitTwo 0x06 station addr value s

/-- RES (R138). -/
def execRes (station : Byte) (s : State) : StepResult := emitNone 0x07 station s

/-- DIAG (R139): any number of data words, no count check. -/
def execDiag (station : Byte) (sub : Word) (data : List Word) (s : State) : StepResult :=
  emit data.length ([station, 0x08] ++ be16 sub ++ be16s data) s

/-- GCEC (R140). -/
def execGcec (station : Byte) (s : State) : StepResult := emitNone 0x0B station s

/-- GCEL (R141). -/
def execGcel (station : Byte) (s : State) : StepResult := emitNone 0x0C station s

/-- WMC (R142, R143, R146, R147, R148), its checks in R130's order. -/
def execWmc (station : Byte) (start qty : Word) (coils : List Word) (s : State) : StepResult :=
  let bc := (qty.toNat + 7) >>> 3
  if coils.length ≠ qty.toNat then .next (endWith (.fail .argCount) s)
  else if coils.any (badCoil s.cfg.wmcMode) then .next (endWith (.refused .badCoilValue) s)
  else if bc > 255 then .next (endWith (.refused .byteCountOverflow) s)
  else emit coils.length ([station, 0x0F] ++ be16 start ++ be16 qty ++ [BitVec.ofNat 8 bc]
    ++ coilBytes s.cfg.wmcMode bc coils) s

/-- WMR (R144, R146, R147, R148), its checks in R130's order. -/
def execWmr (station : Byte) (start qty : Word) (values : List Word) (s : State) : StepResult :=
  let bc := 2 * qty.toNat
  if values.length ≠ qty.toNat then .next (endWith (.fail .argCount) s)
  else if bc > 255 then .next (endWith (.refused .byteCountOverflow) s)
  else emit values.length ([station, 0x10] ++ be16 start ++ be16 qty ++ [BitVec.ofNat 8 bc]
    ++ be16s values) s

/-- RSID (R145). -/
def execRsid (station : Byte) (s : State) : StepResult := emitNone 0x11 station s

end Sys2Proof.Machine
end

