-- ==== Sys2Proof/Machine/Responses.lean ====
section
/-! DEFINITION. Unit DEC (42_validate_decode.md): the meaning of the 13 success-response rows and of the
exception response. A success row is FM's steps 6 and 7 in phase VALIDATE: the checksum (R162), then
the whole frame when `REQ_RAW` is set (R163) or the decoder of the row under its layout condition
(R165); the outcome waits in DONE (44_exchange.md R217). Steps 4 and 5 (R160, R161) choose the row
(Machine/Exchange.lean). -/

namespace Sys2Proof.Machine

/-- `Refused(LayoutMismatch)` (R165). -/
def layoutMismatch (s : State) : StepResult := .next (endWith (.refused .layoutMismatch) s)

/-- `Ok(result)`. -/
def okWith (r : Result) (s : State) : StepResult := .next (endWith (.ok r) s)

/-- The whole response (R163, R173, R176 to R178; 92_eei_decisions.md D26). -/
def decodeRaw (s : State) : StepResult := reading (rxFrame s) fun r => okWith (.raw r) s

/-- Step 6 (R162), then step 7 (R163): the raw frame, or the row's own decoder. -/
def checkedDecode (structured : State → StepResult) (s : State) : StepResult :=
  reading (memReadBytes .rxb 0 (s.rxLen - 2) s) fun body =>
  reading (memReadLe16 .rxb (s.rxLen - 2) s) fun received =>
  let t := crcOver body s
  if t.crc ≠ received then .next (endWith (.fail .checkFails) t)
  else if t.reqRaw then decodeRaw t
  else structured t

/-- S-BITS (R166): `L ≥ 5` and `L = 5 + r[2]`. -/
def decodeBits (s : State) : StepResult :=
  if s.rxLen < 5 then layoutMismatch s else
  reading (memReadByte .rxb 0 s) fun station =>
  reading (memReadByte .rxb 1 s) fun function =>
  reading (memReadByte .rxb 2 s) fun byteCount =>
  if s.rxLen ≠ 5 + byteCount.toNat then layoutMismatch s else
  reading (memReadBytes .rxb 3 byteCount.toNat s) fun octets =>
  okWith (.bits station function byteCount octets) s

/-- S-REGS (R168): as S-BITS with `r[2]` even. -/
def decodeRegs (s : State) : StepResult :=
  if s.rxLen < 5 then layoutMismatch s else
  reading (memReadByte .rxb 0 s) fun station =>
  reading (memReadByte .rxb 1 s) fun function =>
  reading (memReadByte .rxb 2 s) fun byteCount =>
  if s.rxLen ≠ 5 + byteCount.toNat ∨ byteCount.toNat % 2 ≠ 0 then layoutMismatch s else
  reading (memReadWords .rxb 3 (byteCount.toNat / 2) s) fun registers =>
  okWith (.regs station function byteCount registers) s

/-- S-ECHO (R170): `L = 8`. -/
def decodeEcho (s : State) : StepResult :=
  if s.rxLen ≠ 8 then layoutMismatch s else
  reading (memReadByte .rxb 0 s) fun station =>
  reading (memReadByte .rxb 1 s) fun function =>
  reading (memReadBe16 .rxb 2 s) fun address =>
  reading (memReadBe16 .rxb 4 s) fun value =>
  okWith (.echo station function address value) s

/-- S-STATUS (R172): `L = 5`. -/
def decodeStatus (s : State) : StepResult :=
  if s.rxLen ≠ 5 then layoutMismatch s else
  reading (memReadByte .rxb 0 s) fun station =>
  reading (memReadByte .rxb 1 s) fun function =>
  reading (memReadByte .rxb 2 s) fun data =>
  okWith (.status station function data) s

/-- S-CNT (R174): `L = 8`. -/
def decodeCounter (s : State) : StepResult :=
  if s.rxLen ≠ 8 then layoutMismatch s else
  reading (memReadByte .rxb 0 s) fun station =>
  reading (memReadByte .rxb 1 s) fun function =>
  reading (memReadBe16 .rxb 2 s) fun status =>
  reading (memReadBe16 .rxb 4 s) fun eventCount =>
  okWith (.counter station function status eventCount) s

/-- S-LOG (R175): `L ≥ 11` and `L = 5 + r[2]`. -/
def decodeLog (s : State) : StepResult :=
  if s.rxLen < 11 then layoutMismatch s else
  reading (memReadByte .rxb 0 s) fun station =>
  reading (memReadByte .rxb 1 s) fun function =>
  reading (memReadByte .rxb 2 s) fun byteCount =>
  if s.rxLen ≠ 5 + byteCount.toNat then layoutMismatch s else
  reading (memReadBe16 .rxb 3 s) fun status =>
  reading (memReadBe16 .rxb 5 s) fun eventCount =>
  reading (memReadBe16 .rxb 7 s) fun messageCount =>
  reading (memReadBytes .rxb 9 (byteCount.toNat - 6) s) fun events =>
  okWith (.log station function byteCount status eventCount messageCount events) s

/-- RC response (R166). -/
def execRcResponse (s : State) : StepResult := checkedDecode decodeBits s

/-- RDI response (R167). -/
def execRdiResponse (s : State) : StepResult := checkedDecode decodeBits s

/-- RHR response (R168). -/
def execRhrResponse (s : State) : StepResult := checkedDecode decodeRegs s

/-- RIR response (R169). -/
def execRirResponse (s : State) : StepResult := checkedDecode decodeRegs s

/-- WSC response (R170): the echo is decoded, not compared with the request (R180). -/
def execWscResponse (s : State) : StepResult := checkedDecode decodeEcho s

/-- WSR response (R171). -/
def execWsrResponse (s : State) : StepResult := checkedDecode decodeEcho s

/-- RES response (R172). -/
def execResResponse (s : State) : StepResult := checkedDecode decodeStatus s

/-- DIAG response (R173): the verified frame as it is. -/
def execDiagResponse (s : State) : StepResult := checkedDecode decodeRaw s

/-- GCEC response (R174). -/
def execGcecResponse (s : State) : StepResult := checkedDecode decodeCounter s

/-- GCEL response (R175). -/
def execGcelResponse (s : State) : StepResult := checkedDecode decodeLog s

/-- WMC response (R176). -/
def execWmcResponse (s : State) : StepResult := checkedDecode decodeRaw s

/-- WMR response (R177). -/
def execWmrResponse (s : State) : StepResult := checkedDecode decodeRaw s

/-- RSID response (R178). -/
def execRsidResponse (s : State) : StepResult := checkedDecode decodeRaw s

/-- The exception response (R161, R179): `RXB[2]` is the device exception's code; no checksum, no
length beyond what step 4 asked. -/
def execExceptionResponse (s : State) : StepResult :=
  reading (memReadByte .rxb 2 s) fun e => .next (endWith (.fail (.deviceException e)) s)

end Sys2Proof.Machine
end

