-- ==== Sys2Proof/Machine/Dispatch.lean ====
section
/-! DEFINITION. The dispatch: one arm per row of spec/opcode_table.json, each a direct call of that
row's meaning. -/

namespace Sys2Proof.Machine

def exec (i : Instr) (s : State) : Host.Outcome State Fault Refusal :=
  match i with
  | .rc station start qty => Sys2Proof.Machine.execRc station start qty s
  | .rdi station start qty => Sys2Proof.Machine.execRdi station start qty s
  | .rhr station start qty => Sys2Proof.Machine.execRhr station start qty s
  | .rir station start qty => Sys2Proof.Machine.execRir station start qty s
  | .wsc station addr value => Sys2Proof.Machine.execWsc station addr value s
  | .wsr station addr value => Sys2Proof.Machine.execWsr station addr value s
  | .res station => Sys2Proof.Machine.execRes station s
  | .diag station sub data => Sys2Proof.Machine.execDiag station sub data s
  | .gcec station => Sys2Proof.Machine.execGcec station s
  | .gcel station => Sys2Proof.Machine.execGcel station s
  | .wmc station start qty coils => Sys2Proof.Machine.execWmc station start qty coils s
  | .wmr station start qty values => Sys2Proof.Machine.execWmr station start qty values s
  | .rsid station => Sys2Proof.Machine.execRsid station s
  | .rcResponse => Sys2Proof.Machine.execRcResponse s
  | .rdiResponse => Sys2Proof.Machine.execRdiResponse s
  | .rhrResponse => Sys2Proof.Machine.execRhrResponse s
  | .rirResponse => Sys2Proof.Machine.execRirResponse s
  | .wscResponse => Sys2Proof.Machine.execWscResponse s
  | .wsrResponse => Sys2Proof.Machine.execWsrResponse s
  | .resResponse => Sys2Proof.Machine.execResResponse s
  | .diagResponse => Sys2Proof.Machine.execDiagResponse s
  | .gcecResponse => Sys2Proof.Machine.execGcecResponse s
  | .gcelResponse => Sys2Proof.Machine.execGcelResponse s
  | .wmcResponse => Sys2Proof.Machine.execWmcResponse s
  | .wmrResponse => Sys2Proof.Machine.execWmrResponse s
  | .rsidResponse => Sys2Proof.Machine.execRsidResponse s
  | .exceptionResponse => Sys2Proof.Machine.execExceptionResponse s
  | .crcInit => Sys2Proof.Machine.execCrcInit s
  | .crcUpdate x => Sys2Proof.Machine.execCrcUpdate x s
  | .crcHold => Sys2Proof.Machine.execCrcHold s
  | .xltLookup c => Sys2Proof.Machine.execXltLookup c s
  | .openLine => Sys2Proof.Machine.execOpenLine s
  | .closeLine => Sys2Proof.Machine.execCloseLine s

end Sys2Proof.Machine
end

