-- ==== Sys2Proof/Machine/Exchange.lean ====
section
/-! DEFINITION. Unit SEQ (44_exchange.md): how the phases follow one another, the transport calls, the
host's events, and what the step runs next. -/

namespace Sys2Proof.Machine

/-- R211: latch FN and RAW, clear the outcome and the lengths, `PHASE <- ENCODE`. A latch whose source
is unwritten gets a free value (log entry 5). -/
def startExchange (s : State) : State :=
  { clearOutcome s with
    reqFn := s.fn.getD (Config.freeFn s.free)
    reqRaw := s.raw.getD (Config.freeRaw s.free)
    free := s.free + 1
    txLen := 0
    rxLen := 0
    phase := .encode }

/-- A start issued while busy has no meaning (R286). -/
def hostStart (s : State) : StepResult :=
  if busy s then .refused .busyStart else .next (startExchange s)

/-- `rst` (R280): every element at its reset value. What is outside the block stays: its parameters,
what the host and the transport do next, the calls already made, the XLT output (combinational, no state:
R225); the transport is not closed (R281).
The counter of free values goes on, so that a value is never drawn twice, and a refused run stays
refused (log entries 7 and 17). -/
def hardReset (s : State) : State :=
  { State.reset with
    cfg := s.cfg, free := s.free, hostIn := s.hostIn, lineAns := s.lineAns, readAns := s.readAns
    calls := s.calls, xltId := s.xltId, refusal := s.refusal }

/-- What a host event asks for (R225). -/
def hostAction (e : HostEvent) (s : State) : Action :=
  match e with
  | .write w => .answer (writeReg w s)
  | .rst => .answer (.next (hardReset s))
  | .crcPort init en din => .run (decodeCrcPort init en din) s
  | .xltPort code => .run (.xltLookup code) s
  | .command kind =>
    match decodeCmdKind kind with
    | .ok i => .run i s
    | .error .startOfExchange => .answer (hostStart s)
    | .error _ => .answer (.next s)

/-- The host event that lands now, with the inputs that stay: one sent at once, or one held back and
the block idle. DESIGN CHOICE (log entry 6): every leading `now` input lands before SEQ moves, so in a
run from IDLE an event sent at once lands in IDLE, in ENCODE, or in the DONE of OPEN and CLOSE, and no
`rst` or other event lands in SEND, RECEIVE, VALIDATE or the DONE of an exchange; R281 lets a model
restrict the resets it shows. -/
def arriving (s : State) : Option (HostEvent × List HostInput) :=
  match s.hostIn with
  | .now e :: rest => some (e, rest)
  | .whenIdle e :: rest => if busy s then none else some (e, rest)
  | [] => none

/-- ENCODE (R212): checks (1) and (2) of R130, then the operation the registers hold. -/
def encodeAction (s : State) : Action :=
  match commandOperands s with
  | .error r => .answer (.next (endWith (.refused r) s))
  | .ok w =>
    match decode w with
    | .ok i => .run i s
    | .error _ => .answer (.next (endWith (.refused .unknownFunction) s))

/-- SEND (R213): one `send` of the whole frame; its answer decides. No answer yet: the block waits
(R288). -/
def sendStep (s : State) : StepResult :=
  match s.lineAns with
  | [] => .next s
  | ans :: rest =>
    reading (txFrame s) fun frame =>
    let t := { s with lineAns := rest, calls := s.calls ++ [.send frame] }
    match ans with
    | .ok => .next { t with phase := .receive }
    | .err e => .next (endWith (.fail (.transportFailure e)) t)

/-- RECEIVE (R215, R219): one `read`; its bytes go to RXB in order, unless there are more than
`RXBUF_MAX` (log entry 10). -/
def receiveStep (s : State) : StepResult :=
  match s.readAns with
  | [] => .next s
  | ans :: rest =>
    let t := { s with readAns := rest, calls := s.calls ++ [.read] }
    match ans with
    | .err e => .next (endWith (.fail (.transportFailure e)) t)
    | .bytes r =>
      if r.length > s.cfg.rxBufMax then .next (endWith (.refused .bufferOverflow) t)
      else .next { t with rxb := writeBytes s.rxb 0 r, rxLen := r.length, phase := .validate }

/-- VALIDATE, steps 4 and 5 (R160, R161): too short, or the row the function byte selects, or −3. -/
def validateAction (s : State) : Action :=
  if s.rxLen < 4 then .answer (.next (endWith (.fail .tooShort) s))
  else
    match memReadByte .rxb 1 s with
    | .error f => .answer (.fault f)
    | .ok f =>
      match decode (.response s.reqFn f) with
      | .ok i => .run i s
      | .error (.illegalFunctionByte _) => .answer (.next (endWith (.fail .illegalErrorCode) s))
      | .error _ => .answer (.fault (.latchOutsideCatalogue s.reqFn))

/-- The answer of `open` or `close` (R222, R223): on success XOPEN takes the given value; the outcome
is written at once. No answer yet: the block stays in DONE. -/
def handleStep (call : TransportCall) (open? : Bool) (s : State) : StepResult :=
  match s.lineAns with
  | [] => .next s
  | ans :: rest =>
    let t := { s with lineAns := rest, calls := s.calls ++ [call] }
    match ans with
    | .ok => .next (finish .handleOk { t with xopen := open? })
    | .err e => .next (finish (.fail (.handleFailure e)) t)

/-- DONE (R218, R222, R223). -/
def doneStep (s : State) : StepResult :=
  match s.pending with
  | .ending e => .next (finish e s)
  | .opening => handleStep .openLine true s
  | .closing => handleStep .closeLine false s
  | .nothing => .fault .nothingPending

/-- What SEQ does when no host event lands, by phase (R27, R210). -/
def seqAction (s : State) : Action :=
  match s.phase with
  | .idle => .answer (.next s)
  | .encode => encodeAction s
  | .send => .answer (sendStep s)
  | .receive => .answer (receiveStep s)
  | .validate => validateAction s
  | .done => .answer (doneStep s)

/-- What the next step does: the host event that lands, else SEQ's own step. That a waiting `now` input
goes first is the model's choice (log entry 6). -/
def nextAction (s : State) : Action :=
  match arriving s with
  | some (e, rest) => hostAction e { s with hostIn := rest }
  | none => seqAction s

/-- The block as an exchange's start leaves it with these command registers (R211), no host event
landing. -/
def placeCommand (fn stn : Byte) (a b : Word) (s : State) : State :=
  { s with
    stn := some stn, fn := some fn, a := some a, b := some b, raw := some false, nv := some 0
    reqFn := fn, reqRaw := false, txLen := 0, rxLen := 0, resValid := false, reqCap := false
    rspCap := false, phase := .encode, pending := .nothing, hostIn := [] }

/-- The block as a `read` leaves it that answered this frame to a request of `reqFn` (R215), no host
event landing. -/
def placeResponse (reqFn : Byte) (frame : List Byte) (s : State) : State :=
  { s with
    reqFn := reqFn, reqRaw := false, rxb := writeBytes s.rxb 0 frame, rxLen := frame.length
    phase := .validate, pending := .nothing, hostIn := [] }

/-- A port word where the next step meets it (log entry 16). -/
def placeWord (w : PortWord) (s : State) : State :=
  match w with
  | .command fn stn a b _ => placeCommand fn stn a b s
  | .response reqFn f => placeResponse reqFn [0, f, 0, 0, 0] s
  | .crc init en din => { s with hostIn := [.now (.crcPort init en din)] }
  | .xlt code => { s with hostIn := [.now (.xltPort code)] }
  | .cmd kind => { s with hostIn := [.now (.command kind)] }

end Sys2Proof.Machine
end

