-- ==== Sys2Proof/Machine/Step.lean ====
section
/-! DEFINITION. One step of the block: a host event, a transport call with its answer, or one whole
computation (92_eei_decisions.md D1). -/

namespace Sys2Proof.Machine

/-- One step. -/
def step (s : State) : Host.Outcome State Fault Refusal :=
  match nextAction s with
  | .run i t => exec i t
  | .answer o => o

/-- `s` with a table word where the next step meets it: an exchange started with that function code
(operand bytes above `nbits` zero, RAW clear, no values), or an exception response just received
(log entry 16). -/
def State.withFetchWord (s : State) (nbits w : Nat) : State := placeWord (portOfTableWord nbits w) s

end Sys2Proof.Machine
end

