-- ==== Sys2Proof/Machine/Typed.lean ====
section
/-! DEFINITION. The typed view of an exchange (00_scope.md R13 to R15, 44_exchange.md R210): functions
on byte sequences alone, without registers, buffers or phases. 10_state.md's preamble asks that the
register view and this one agree; the obligations say so. -/

namespace Sys2Proof.Machine

/-- The function code of a request row (R86). -/
def requestFn : Instr → Option Byte
  | .rc .. => some 0x01
  | .rdi .. => some 0x02
  | .rhr .. => some 0x03
  | .rir .. => some 0x04
  | .wsc .. => some 0x05
  | .wsr .. => some 0x06
  | .res .. => some 0x07
  | .diag .. => some 0x08
  | .gcec .. => some 0x0B
  | .gcel .. => some 0x0C
  | .wmc .. => some 0x0F
  | .wmr .. => some 0x10
  | .rsid .. => some 0x11
  | .rcResponse | .rdiResponse | .rhrResponse | .rirResponse | .wscResponse | .wsrResponse
  | .resResponse | .diagResponse | .gcecResponse | .gcelResponse | .wmcResponse | .wmrResponse
  | .rsidResponse | .exceptionResponse => none
  | .crcInit | .crcUpdate _ | .crcHold | .xltLookup _ | .openLine | .closeLine => none

/-- How many values a command supplies (R23). -/
def valueCount : Instr → Nat
  | .diag _ _ data => data.length
  | .wmc _ _ _ coils => coils.length
  | .wmr _ _ _ values => values.length
  | .rc .. | .rdi .. | .rhr .. | .rir .. | .wsc .. | .wsr .. | .res .. | .gcec .. | .gcel ..
  | .rsid .. => 0
  | .rcResponse | .rdiResponse | .rhrResponse | .rirResponse | .wscResponse | .wsrResponse
  | .resResponse | .diagResponse | .gcecResponse | .gcelResponse | .wmcResponse | .wmrResponse
  | .rsidResponse | .exceptionResponse => 0
  | .crcInit | .crcUpdate _ | .crcHold | .xltLookup _ | .openLine | .closeLine => 0

/-- The outcome an ill-formed command ends in (R143, R146, R148). -/
def illFormedEnding : IllFormed → Ending
  | .argCount => .fail .argCount
  | .coilValue => .refused .badCoilValue
  | .byteCount => .refused .byteCountOverflow

/-- `encode(cmd)` of R130, from check (3) on: a frame, or the outcome that ends the exchange. -/
def encodeCommand (cfg : Config) (i : Instr) : Except Ending (List Byte) :=
  match illFormed cfg.wmcMode i with
  | some w => .error (illFormedEnding w)
  | none =>
    match requestFrame cfg.wmcMode i with
    | none => .error (.refused .unknownFunction)
    | some frame =>
      if frame.length > cfg.txBufMax ∨ valueCount i > cfg.nvMax then
        .error (.refused .bufferOverflow)
      else .ok frame

/-- S-BITS (R82, R166). -/
def bitsResult : List Byte → Ending
  | stn :: fn :: bc :: rest =>
    if (stn :: fn :: bc :: rest).length = 5 + bc.toNat then .ok (.bits stn fn bc (rest.take bc.toNat))
    else .refused .layoutMismatch
  | _ => .refused .layoutMismatch

/-- S-REGS (R82, R168). -/
def regsResult : List Byte → Ending
  | stn :: fn :: bc :: rest =>
    if (stn :: fn :: bc :: rest).length = 5 + bc.toNat ∧ bc.toNat % 2 = 0 then
      match wordsOf (rest.take bc.toNat) with
      | some ws => .ok (.regs stn fn bc ws)
      | none => .refused .layoutMismatch
    else .refused .layoutMismatch
  | _ => .refused .layoutMismatch

/-- S-ECHO (R82, R170). -/
def echoResult : List Byte → Ending
  | [stn, fn, a1, a0, v1, v0, _, _] => .ok (.echo stn fn (joinBytes a1 a0) (joinBytes v1 v0))
  | _ => .refused .layoutMismatch

/-- S-STATUS (R82, R172). -/
def statusResult : List Byte → Ending
  | [stn, fn, d, _, _] => .ok (.status stn fn d)
  | _ => .refused .layoutMismatch

/-- S-CNT (R82, R174). -/
def counterResult : List Byte → Ending
  | [stn, fn, s1, s0, e1, e0, _, _] => .ok (.counter stn fn (joinBytes s1 s0) (joinBytes e1 e0))
  | _ => .refused .layoutMismatch

/-- S-LOG (R82, R175). -/
def logResult : List Byte → Ending
  | stn :: fn :: bc :: s1 :: s0 :: e1 :: e0 :: m1 :: m0 :: rest =>
    if (rest.length + 9 = 5 + bc.toNat) ∧ 11 ≤ rest.length + 9 then
      .ok (.log stn fn bc (joinBytes s1 s0) (joinBytes e1 e0) (joinBytes m1 m0)
        (rest.take (bc.toNat - 6)))
    else .refused .layoutMismatch
  | _ => .refused .layoutMismatch

/-- The decoder of a function code on a verified frame (R86, R165 to R178). -/
def structuredResult (fn : Byte) (r : List Byte) : Ending :=
  match fn.toNat with
  | 0x01 | 0x02 => bitsResult r
  | 0x03 | 0x04 => regsResult r
  | 0x05 | 0x06 => echoResult r
  | 0x07 => statusResult r
  | 0x0B => counterResult r
  | 0x0C => logResult r
  | 0x08 | 0x0F | 0x10 | 0x11 => .ok (.raw r)
  | _ => .refused .unknownFunction

/-- R116, R162: the checksum over all but the last two bytes against those two, low byte first. -/
def checksumOk (r : List Byte) : Bool :=
  crc16 (r.take (r.length - 2)) == joinBytes (r.getD (r.length - 1) 0) (r.getD (r.length - 2) 0)

/-- Steps 6 and 7 (R162, R163). -/
def successOutcome (fn : Byte) (raw : Bool) (r : List Byte) : Ending :=
  if checksumOk r = false then .fail .checkFails
  else if raw then .ok (.raw r)
  else structuredResult fn r

/-- `validate(REQ_FN, REQ_RAW, r)`: R160, R161, R162, R163 in that order. -/
def validateResponse (reqFn : Byte) (raw : Bool) (r : List Byte) : Ending :=
  if r.length < 4 then .fail .tooShort
  else if r.getD 1 0 ≠ reqFn then
    if (r.getD 1 0).toNat = reqFn.toNat + 0x80 then .fail (.deviceException (r.getD 2 0))
    else .fail .illegalErrorCode
  else successOutcome reqFn raw r

/-- `exchange(cmd)` of R210, with the transport's two answers as inputs. -/
def exchangeOutcome (cfg : Config) (i : Instr) (raw : Bool) (sent : CallAnswer) (got : ReadAnswer) :
    Ending :=
  match encodeCommand cfg i with
  | .error e => e
  | .ok _ =>
    match sent with
    | .err e => .fail (.transportFailure e)
    | .ok =>
      match got with
      | .err e => .fail (.transportFailure e)
      | .bytes r =>
        if r.length > cfg.rxBufMax then .refused .bufferOverflow
        else validateResponse ((requestFn i).getD 0) raw r

end Sys2Proof.Machine
end

