-- ==== Sys2Proof/Machine/Views.lean ====
section
/-! DEFINITION. What a host reads (44_exchange.md R225): views without side effect (20_memory.md R59),
valid while `RES_VALID = 1` (10_state.md R34) and not while busy (70_reset_and_hazards.md R291). A view
that must not be read has no value. -/

namespace Sys2Proof.Machine

/-- When a host may read the outcome registers, the buffers and `XOPEN` (R225, R291). -/
def readable (s : State) : Bool := s.resValid && !busy s

/-- A register as the host sees it. -/
def viewOf {α : Type} (f : State → α) (s : State) : Option α := if readable s then some (f s) else none

/-! ## The outcome registers -/

/-- `RES_KIND` (R28). -/
def kindView (s : State) : Option ResKind := viewOf State.resKind s

/-- Do `RES_CODE` and `RES_MSG` mean something (R28, R218)? -/
def carriesCode (s : State) : Bool := s.resKind == .localFailure || s.resKind == .device

/-- `RES_CODE`, meaningful for LOCAL and DEVICE only (R28). -/
def codeView (s : State) : Option Word := if carriesCode s then viewOf State.resCode s else none

/-- `RES_MSG`, meaningful where `RES_CODE` is (R218). -/
def msgView (s : State) : Option (BitVec 4) := if carriesCode s then viewOf State.resMsg s else none

/-- `RES_REFUSE`, when `RES_KIND = REFUSED` (R20). -/
def refuseView (s : State) : Option (BitVec 3) :=
  if s.resKind == .refused then viewOf State.resRefuse s else none

/-- `REQ_CAP` (R28). -/
def reqCapView (s : State) : Option Bool := viewOf State.reqCap s

/-- `RSP_CAP` (R28). -/
def rspCapView (s : State) : Option Bool := viewOf State.rspCap s

/-- `XERR` after a transport failure (R224). -/
def causeView (s : State) : Option TransportError :=
  if s.resKind == .transport then viewOf State.xerr s else none

/-! ## The buffers and the handle bit -/

/-- `TX_LEN` (R225). -/
def txLenView (s : State) : Option Nat := viewOf State.txLen s

/-- `RX_LEN` (R225). -/
def rxLenView (s : State) : Option Nat := viewOf State.rxLen s

/-- `TXB[0..TX_LEN)` (R26, R225). -/
def txView (s : State) : Option (List Byte) := (viewOf txFrame s).bind Except.toOption

/-- `RXB[0..RX_LEN)` (R26, R225). -/
def rxView (s : State) : Option (List Byte) := (viewOf rxFrame s).bind Except.toOption

/-- `XOPEN` (R225). -/
def xopenView (s : State) : Option Bool := viewOf State.xopen s

/-! ## Always there -/

/-- `crc_q`, the CRC port's output (40_crc.md R120). -/
def crcView (s : State) : Word := s.crc

/-- `xlt_id`, the XLT port's output (R225; log entry 14). -/
def xltView (s : State) : BitVec 4 := s.xltId

/-! ## The record and the result -/

/-- FM's Protocol Error `{message, numeric_code, request_bytes, response_bytes, cause}` (R240): the
captures are bytes, their rendering as hex text is the host's. -/
structure FailureRecord where
  kind : ResKind
  message : Option (BitVec 4)
  code : Option Word
  request : Option (List Byte)
  response : Option (List Byte)
  cause : Option TransportError
deriving DecidableEq, Repr

/-- The failure record of the last operation, if it failed (R240, R246). -/
def failureRecord (s : State) : Option FailureRecord :=
  if readable s && s.resKind != .ok && s.resKind != .refused then
    some
      { kind := s.resKind
        message := msgView s
        code := codeView s
        request := if s.reqCap then txView s else none
        response := if s.rspCap then rxView s else none
        cause := causeView s }
  else none

/-- The decoded result as windows on `RXB` (R29): what the latched function and flag make of
`RXB[0..RX_LEN)` while the last outcome is OK. DESIGN CHOICE (log entry 23): the spec leaves open
whether a result is readable after an OPEN or CLOSE that was answered `Ok`; neither touches `RXB`,
`RX_LEN` or the latches (R222, R223), so the windows then show the result of the last exchange again, if
that exchange gave one, and nothing otherwise. -/
def resultView (s : State) : Option Result :=
  if readable s && s.resKind == .ok then
    match rxFrame s with
    | .ok r =>
      match validateResponse s.reqFn s.reqRaw r with
      | .ok res => some res
      | .handleOk | .fail _ | .refused _ => none
    | .error _ => none
  else none

end Sys2Proof.Machine
end

