-- ==== Sys2Proof/Safety.lean ====
section
/-! DEFINITION. What the claims are stated in: the frame of a request, the invariant of the block, and
what a run without a refusal is (00_scope.md R16, 60_exceptions.md R243). -/

namespace Sys2Proof.Machine

/-- A request built and ready to send (R131, R212): TXB holds the frame, CRC its checksum, the phase is
SEND; every other field, and every byte of TXB past the frame, is as it was. -/
structure RequestBuilt (s : State) (body : List Byte) (t : State) : Prop where
  frame : txFrame t = .ok (withCrc body)
  length : t.txLen = body.length + 2
  checksum : t.crc = crc16 body
  phase : t.phase = .send
  beyond : ∀ k, body.length + 2 ≤ k → Sparse.read t.txb k = Sparse.read s.txb k
  rest : t = { s with txb := t.txb, txLen := t.txLen, crc := t.crc, phase := t.phase }

/-- The operation ended with this outcome waiting in DONE, a refused one marking the run (R16, log entry
7); nothing else changed. -/
def Ended (e : Ending) (s t : State) : Prop :=
  t = { s with phase := .done, pending := .ending e, refusal := s.refusal.or e.reason }

/-- A response was checked: CRC holds the checksum computed over it, the outcome waits in DONE, nothing
else changed (R162, R217) but the mark of a refused run. -/
def Checked (e : Ending) (r : List Byte) (s t : State) : Prop :=
  Ended e { s with crc := crc16 (r.take (r.length - 2)) } t

/-- The outcome waiting in this state is written by the next step as a local failure with this code and
message, request and response captured (R218, R242). -/
def WritesLocalFailure (code : Word) (message : BitVec 4) (t : State) : Prop :=
  ∃ u, step t = .next u ∧ u.phase = .idle ∧ u.resValid = true ∧ u.resKind = .localFailure ∧
    u.resCode = code ∧ u.resMsg = message ∧ u.reqCap = true ∧ u.rspCap = true

/-- The outcome waiting in this state is written by the next step as this transport error, the request
captured, no response (R218, R224). -/
def WritesTransportFailure (e : TransportError) (t : State) : Prop :=
  ∃ u, step t = .next u ∧ u.phase = .idle ∧ u.resValid = true ∧ u.resKind = .transport ∧
    u.xerr = e ∧ u.reqCap = true ∧ u.rspCap = false ∧ u.calls = t.calls

/-- The block is waiting on the remote side or judging its answer: a request frame is out. -/
def Phase.requestOut : Phase → Bool
  | .send | .receive | .validate => true
  | .idle | .encode | .done => false

/-- What every state of the block satisfies. -/
structure Inv (s : State) : Prop where
  /-- Buffers and value file in canonical form. -/
  txbForm : Memory.wf s.txb = true
  rxbForm : Memory.wf s.rxb = true
  vForm : ValueFile.wf s.v = true
  /-- Nothing is stored outside the address spaces (R50). -/
  txbBound : ∀ k, s.cfg.txBufMax ≤ k → Sparse.read s.txb k = none
  rxbBound : ∀ k, s.cfg.rxBufMax ≤ k → Sparse.read s.rxb k = none
  vBound : ∀ k, s.cfg.nvMax ≤ k → Sparse.read s.v k = none
  /-- The lengths stay within the buffers, and every byte below them is held (R26, R50). -/
  txHeld : s.txLen ≤ s.cfg.txBufMax ∧ ∀ k, k < s.txLen → (Sparse.read s.txb k).isSome = true
  rxHeld : s.rxLen ≤ s.cfg.rxBufMax ∧ ∀ k, k < s.rxLen → (Sparse.read s.rxb k).isSome = true
  /-- Something is pending exactly in DONE (R27). -/
  pendingInDone : s.pending = .nothing ↔ s.phase ≠ .done
  /-- An outcome is only present in IDLE (R211, R218, R291). -/
  validInIdle : s.resValid = true → s.phase = .idle
  /-- Captures belong to an outcome, and a response is captured only beside its request (R218). -/
  capturesValid : s.reqCap = true → s.resValid = true
  responseWithRequest : s.rspCap = true → s.reqCap = true
  /-- A start clears both lengths: TX_LEN is 0 in ENCODE and after an ArgCount, RX_LEN until a response
  is stored (R211, R148, R215). -/
  txEmpty : s.phase = .encode ∨ s.pending = .ending (.fail .argCount) → s.txLen = 0
  rxEmpty : s.phase = .encode ∨ s.phase = .send ∨ s.phase = .receive → s.rxLen = 0
  /-- A refused outcome, waiting or written, has marked the run (R16, log entry 7). -/
  refusedMarked : (∃ r, s.pending = .ending (.refused r)) ∨ (s.resValid = true ∧ s.resKind = .refused) →
    s.refusal ≠ none
  /-- In ENCODE the latches are the registers' values (R25, R64). -/
  latchFn : s.phase = .encode → ∀ f, s.fn = some f → s.reqFn = f
  latchRaw : s.phase = .encode → ∀ x, s.raw = some x → s.reqRaw = x
  /-- Once a request is out, REQ_FN is one of the 13 codes (R25). -/
  latchCatalogued : s.phase.requestOut = true → catalogued s.reqFn = true
  /-- The request that is out carries REQ_FN at offset 1 and a good checksum: its CRC residue is 0
  (R131, R117). -/
  frameOut : s.phase.requestOut = true →
    ∃ f, txFrame s = .ok f ∧ 4 ≤ f.length ∧ f[1]? = some s.reqFn ∧ crc16 f = 0
  /-- A result waiting in DONE is what the latches make of the response (R29). -/
  resultIsWindow : ∀ res, s.pending = .ending (.ok res) →
    ∃ r, rxFrame s = .ok r ∧ validateResponse s.reqFn s.reqRaw r = .ok res

/-- What the outcome registers hold once an outcome is present is legal (R28, R203, R205, R242). -/
structure OutcomeLegal (s : State) : Prop where
  localCode : s.resValid = true → s.resKind = .localFailure →
    (s.resCode = 0xFFFF ∧ s.resMsg = 12) ∨ (s.resCode = 0xFFFE ∧ s.resMsg = 13) ∨
    (s.resCode = 0xFFFD ∧ s.resMsg = 14) ∨ (s.resCode = s.cfg.argCountCode ∧ s.resMsg = 15)
  deviceCode : s.resValid = true → s.resKind = .device →
    ∃ e : Byte, s.resCode = e.setWidth 16 ∧ s.resMsg = xrom e
  refuseReason : s.resValid = true → s.resKind = .refused → s.resRefuse ≠ 0 ∧ s.resRefuse ≠ 7
  captures : s.resValid = true → s.resKind = .ok ∨ s.resKind = .refused →
    s.reqCap = false ∧ s.rspCap = false
  /-- `busyStart` is never an outcome waiting to be written (R286). -/
  noBusyStart : s.pending ≠ .ending (.refused .busyStart)

/-- No host event lands while the block is busy: the host's next input, if any, is held back. -/
def quiet (s : State) : Bool :=
  match s.hostIn with
  | .now _ :: _ => false
  | .whenIdle _ :: _ => true
  | [] => true

/-- The host's next event is this one and it lands now, with these inputs left. -/
def lands (e : HostEvent) (rest : List HostInput) (s : State) : Prop :=
  s.hostIn = .now e :: rest ∨ (s.hostIn = .whenIdle e :: rest ∧ s.phase = .idle)

/-- The next host event that lands is no register write and no `rst`. -/
def noRegisterEvent (s : State) : Prop :=
  (∀ w rest, ¬ lands (.write w) rest s) ∧ ∀ rest, ¬ lands .rst rest s

/-- A structured result and the function code whose success response carries it, with its lengths as
30_encoding.md R82 gives them. -/
def Result.fits : Result → Byte → Bool
  | .bits _ fn bc octets, f => fn == f && (f == 0x01 || f == 0x02) && octets.length == bc.toNat
  | .regs _ fn bc ws, f => fn == f && (f == 0x03 || f == 0x04) && 2 * ws.length == bc.toNat
  | .echo _ fn _ _, f => fn == f && (f == 0x05 || f == 0x06)
  | .status _ fn _, f => fn == f && f == 0x07
  | .counter _ fn _ _, f => fn == f && f == 0x0B
  | .log _ fn bc _ _ _ events, f => fn == f && f == 0x0C && events.length + 6 == bc.toNat
  | .raw _, _ => false

/-- The outcome registers as 44_exchange.md R218 has them after this outcome; a register R218 does not
set is not mentioned (log entry 4). -/
structure OutcomeWritten (e : Ending) (t : State) : Prop where
  valid : t.resValid = true
  idle : t.phase = .idle
  kind : t.resKind = e.kind
  code : ∀ c, e.code t.cfg = some c → t.resCode = c
  message : ∀ m, e.msg = some m → t.resMsg = m
  refuse : ∀ r, e.refuse = some r → t.resRefuse = r
  request : t.reqCap = e.reqCap
  response : t.rspCap = e.rspCap
  cause : ∀ x, e.cause = some x → t.xerr = x

/-- The steps the phases may take (R27): forward, straight to DONE, from DONE to IDLE, or staying;
`rst` goes to IDLE from anywhere. -/
def phaseStep : Phase → Phase → Bool
  | .idle, .idle | .idle, .encode | .idle, .done => true
  | .encode, .encode | .encode, .send | .encode, .done => true
  | .send, .send | .send, .receive | .send, .done => true
  | .receive, .receive | .receive, .validate | .receive, .done => true
  | .validate, .validate | .validate, .done => true
  | .done, .done | .done, .idle => true
  | _, _ => false

/-- No refused outcome has been met in the run that led here: the premise R243 asks a claim about the chip
to take. The mark is never cleared (log entry 7). -/
def notRefused (s : State) : Bool := s.refusal.isNone

/-- A final good state (R16): an operation is over with an outcome to read, and nothing in the run was
refused. -/
def goodEnd (s : State) : Bool := readable s && notRefused s

/-! ### Error values renamed

The block carries the transport's error values unchanged and looks into none (R9, R224): renaming them
is a function of State. -/

/-- The error of a failure, renamed. -/
def Failure.mapError (f : TransportError → TransportError) : Failure → Failure
  | .transportFailure e => .transportFailure (f e)
  | .handleFailure e => .handleFailure (f e)
  | .argCount => .argCount
  | .tooShort => .tooShort
  | .checkFails => .checkFails
  | .illegalErrorCode => .illegalErrorCode
  | .deviceException e => .deviceException e

/-- The error of a waiting outcome, renamed. -/
def Pending.mapError (f : TransportError → TransportError) : Pending → Pending
  | .ending (.fail x) => .ending (.fail (x.mapError f))
  | .ending (.ok r) => .ending (.ok r)
  | .ending .handleOk => .ending .handleOk
  | .ending (.refused r) => .ending (.refused r)
  | .nothing => .nothing
  | .opening => .opening
  | .closing => .closing

/-- The error of an answer to `open`, `close` or `send`, renamed. -/
def CallAnswer.mapError (f : TransportError → TransportError) : CallAnswer → CallAnswer
  | .ok => .ok
  | .err e => .err (f e)

/-- The error of an answer to `read`, renamed. -/
def ReadAnswer.mapError (f : TransportError → TransportError) : ReadAnswer → ReadAnswer
  | .bytes r => .bytes r
  | .err e => .err (f e)

/-- Every error value in a state, renamed. -/
def State.mapError (f : TransportError → TransportError) (s : State) : State :=
  { s with
    xerr := f s.xerr, pending := s.pending.mapError f
    lineAns := s.lineAns.map (CallAnswer.mapError f)
    readAns := s.readAns.map (ReadAnswer.mapError f) }

/-- What a step answers, its state changed. -/
def mapNext (g : State → State) : StepResult → StepResult
  | .next t => .next (g t)
  | .fault f => .fault f
  | .refused r => .refused r

/-- The command registers (R21). -/
def sameCommand (s t : State) : Prop :=
  t.stn = s.stn ∧ t.fn = s.fn ∧ t.a = s.a ∧ t.b = s.b ∧ t.raw = s.raw ∧ t.nv = s.nv ∧ t.v = s.v

/-- `k` steps of SEQ, stopping at the first fault or refusal. -/
def steps (k : Nat) (s : State) : StepResult := Host.Core.run
  { State := State, Fault := Fault, Refusal := Refusal, step := step, reset := State.reset } k s

end Sys2Proof.Machine
end

