-- ==== Sys2Proof/Certificates/Slice0/Obligations.lean ====
section
/-! DEFINITION. The statements about the block, from the numbered rules of spec/. Each docstring names
the rule it formalises; a statement that rests on a choice of the model or on an inference the spec
marks as its own says so. The field `refusal` in `Ended` and `Checked` is the model's own mark of a refused
run (log entry 7), no rule's. -/

open Sys2Proof Sys2Proof.Machine

/-! ## Reset -/

/-- R280, R281: `rst` in any phase puts every element at the value the spec gives it, writes no outcome
and makes no transport call (the values of the unspecified elements are not mentioned). -/
def Obligations.RstPutsTheSpecifiedValues : Prop :=
  ∀ (s : State) (rest : List HostInput), lands .rst rest s →
    ∃ t, step s = .next t ∧
      t.phase = .idle ∧ t.resValid = false ∧ t.reqCap = false ∧ t.rspCap = false ∧
      t.txLen = 0 ∧ t.rxLen = 0 ∧ t.xopen = false ∧ t.crc = 0xFFFF ∧
      t.stn = none ∧ t.fn = none ∧ t.a = none ∧ t.b = none ∧ t.raw = none ∧ t.nv = none ∧
      (∀ k, Sparse.read t.v k = none) ∧
      t.calls = s.calls ∧ t.hostIn = rest ∧ t.cfg = s.cfg ∧
      (rest = [] → step t = .next t)

/-- R34, R280: the state after reset holds the values the spec gives, and the block then executes
nothing until the host issues a command: in any IDLE state a step with no landing event changes
nothing, and `cmd_kind = 00` (R92) is no command in any phase. -/
def Obligations.ResetWaitsInIdle : Prop :=
  State.reset.phase = .idle ∧ State.reset.resValid = false ∧ State.reset.reqCap = false ∧
  State.reset.rspCap = false ∧ State.reset.txLen = 0 ∧ State.reset.rxLen = 0 ∧
  State.reset.xopen = false ∧ State.reset.crc = 0xFFFF ∧
  State.reset.stn = none ∧ State.reset.fn = none ∧ State.reset.a = none ∧ State.reset.b = none ∧
  State.reset.raw = none ∧ State.reset.nv = none ∧ (∀ k, Sparse.read State.reset.v k = none) ∧
  step State.reset = .next State.reset ∧
  (∀ s : State, s.phase = .idle → (∀ e rest, ¬ lands e rest s) → step s = .next s) ∧
  (∀ (s : State) (rest : List HostInput), lands (.command 0) rest s →
    step s = .next { s with hostIn := rest })

/-- The invariants hold after reset (they rest on the model's reset values only where every value would
do). -/
def Obligations.InvariantsHoldAtReset : Prop := Inv State.reset ∧ OutcomeLegal State.reset

/-! ## Invariants of every step -/

/-- Every step keeps the invariant of the block: canonical buffers within their spaces, held bytes
below the lengths, an outcome only in IDLE, lengths that a start cleared, latches that agree with the
frozen registers, a request that is out with residue 0, a waiting result that is the window on RXB, and
(the model's choice, log entry 7) a refused outcome that has marked the run. -/
def Obligations.StepKeepsInvariant : Prop :=
  ∀ s t : State, Inv s → step s = .next t → Inv t

/-- Every step keeps the outcome registers legal: RES_CODE and RES_MSG agree with RES_KIND as R242 and
R203 list them, captures only with failures, RES_REFUSE one of the six reasons an exchange ends in.
That RES_REFUSE is never 7 and BusyStart never a waiting outcome is the model's choice (log entry 7):
R243 lists 7 as a value of RES_REFUSE, and the model stops on BusyStart instead. -/
def Obligations.StepKeepsOutcomeLegal : Prop :=
  ∀ s t : State, OutcomeLegal s → step s = .next t → OutcomeLegal t

/-- From a state with the invariant the only fault is a host write in IDLE to an element of V that does
not exist (R50; the fault itself is the model's, log entry 12): no rule reads past a valid length
(R51). -/
def Obligations.OnlyMissingElementsFault : Prop :=
  ∀ (s : State) (f : Fault), Inv s → step s = .fault f →
    ∃ i v rest, f = .noSuchElement i ∧ s.cfg.nvMax ≤ i ∧ s.phase = .idle ∧
      lands (.write (.value i v)) rest s

/-- The machine refuses a start, OPEN or CLOSE while `PHASE ≠ IDLE` (R286), and refuses nothing else,
which is the model's choice (log entry 7: the six other refused outcomes of R16 are next states); a
register write while busy is ignored (R286). -/
def Obligations.BusyCommandsAreRefusedAndWritesIgnored : Prop :=
  (∀ (s : State) (r : Refusal), step s = .refused r ↔
    (r = .busyStart ∧ s.phase ≠ .idle ∧ ∃ kind rest, kind ≠ 0 ∧ lands (.command kind) rest s)) ∧
  (∀ (s : State) (w : RegWrite) (rest : List HostInput), s.phase ≠ .idle → lands (.write w) rest s →
    step s = .next { s with hostIn := rest })

/-- R27: PHASE advances only forward, from any phase of an exchange straight to DONE at most, from DONE
to IDLE; only `rst` goes back. -/
def Obligations.PhaseAdvancesOnlyForward : Prop :=
  ∀ s t : State, step s = .next t → (∀ rest, ¬ lands .rst rest s) → phaseStep s.phase t.phase = true

/-- R64: no rule of the block writes a command register: only a host write (or `rst`) changes one, and
a host write changes one only in IDLE (R21). -/
def Obligations.OnlyTheHostWritesCommandRegisters : Prop :=
  ∀ s t : State, step s = .next t →
    (noRegisterEvent s → sameCommand s t) ∧
    ((∀ rest, ¬ lands .rst rest s) → s.phase ≠ .idle → sameCommand s t)

/-- R21: a host write in IDLE puts the value in the one register it names and changes nothing else; an
element of V only below NV_MAX. -/
def Obligations.HostWritesOneRegister : Prop :=
  ∀ (s : State) (w : RegWrite) (rest : List HostInput), s.phase = .idle → lands (.write w) rest s →
    match w with
    | .stn x => step s = .next { s with hostIn := rest, stn := some x }
    | .fn x => step s = .next { s with hostIn := rest, fn := some x }
    | .a x => step s = .next { s with hostIn := rest, a := some x }
    | .b x => step s = .next { s with hostIn := rest, b := some x }
    | .raw x => step s = .next { s with hostIn := rest, raw := some x }
    | .nv n => step s = .next { s with hostIn := rest, nv := some n }
    | .value i x => i < s.cfg.nvMax →
      ∃ v, step s = .next { s with hostIn := rest, v := v } ∧
        Sparse.read v i = some x ∧ ∀ k, k ≠ i → Sparse.read v k = Sparse.read s.v k

/-- R30: XOPEN changes only when the answer `Ok` to `open` sets it or the answer `Ok` to `close` clears
it (or at `rst`), and no step reads it: with another value of XOPEN the step answers the same, but for
XOPEN itself. -/
def Obligations.HandleBitFollowsTheTransport : Prop :=
  (∀ s t : State, step s = .next t → (∀ rest, ¬ lands .rst rest s) →
    (t.xopen = s.xopen ∨
      (s.phase = .done ∧ s.lineAns.head? = some .ok ∧
        ((s.pending = .opening ∧ t.xopen = true) ∨ (s.pending = .closing ∧ t.xopen = false))))) ∧
  (∀ (s : State) (up : Bool), ∃ x, step { s with xopen := up } =
    mapNext (fun t => { t with xopen := x }) (step s))

/-- R59, R220: a step makes at most one transport call; a `send` only leaves SEND, carries
`TXB[0..TX_LEN)` and never returns to it; a `read` only leaves RECEIVE. With R27 an exchange makes at
most one of each. -/
def Obligations.OneCallPerPhase : Prop :=
  ∀ s t : State, step s = .next t →
    t.calls = s.calls ∨ ∃ c, t.calls = s.calls ++ [c] ∧
      match c with
      | .send f => s.phase = .send ∧ txFrame s = .ok f ∧ (t.phase = .receive ∨ t.phase = .done)
      | .read => s.phase = .receive ∧ (t.phase = .validate ∨ t.phase = .done)
      | .openLine => s.phase = .done ∧ s.pending = .opening ∧ t.phase = .idle
      | .closeLine => s.phase = .done ∧ s.pending = .closing ∧ t.phase = .idle

/-- The parameters of R9 are constants of the run (the model keeps them in State, log entry 1). -/
def Obligations.ParametersNeverChange : Prop :=
  ∀ s t : State, step s = .next t → t.cfg = s.cfg

/-! ## Decoding and encoding -/

/-- The port word written for an instruction decodes to it (R86, R87, R92). -/
def Obligations.PortWordsDecodeBack : Prop := ∀ i : Instr, decode (encode i) = .ok i

/-- R87: the classification of a response's function byte, for every latched code of the catalogue. -/
def Obligations.FunctionByteClassified : Prop :=
  ∀ reqFn f : Byte, catalogued reqFn = true →
    (f = reqFn → decode (.response reqFn f) = decodeSuccess reqFn ∧ decodeSuccess reqFn ≠ .error (.latchOutsideCatalogue reqFn)) ∧
    (f.toNat = reqFn.toNat + 0x80 → decode (.response reqFn f) = .ok .exceptionResponse) ∧
    (f ≠ reqFn → f.toNat ≠ reqFn.toNat + 0x80 →
      decode (.response reqFn f) = .error (.illegalFunctionByte f))

/-- Words written out from the spec's encodings decode to what they stand for: frames of
95_test_vectors.md section 2 (through the model's reader, log entry 19), function bytes of R86 and the
exception row of the opcode table as the model numbers table words (log entry 16: 0x80 is the row's
match value and is read under a request of 0x00, no code of R86), an exception byte of R87, the ports
of R92. -/
def Obligations.SpecWordsDecode : Prop :=
  parseRequest .packed [0x01, 0x03, 0x00, 0x00, 0x00, 0x02, 0xC4, 0x0B] = .ok (.rhr 1 0 2) ∧
  parseRequest .packed [0x01, 0x05, 0x00, 0xAC, 0xFF, 0x00, 0x4C, 0x1B] = .ok (.wsc 1 0x00AC 0xFF00) ∧
  parseRequest .packed [0x01, 0x07, 0x41, 0xE2] = .ok (.res 1) ∧
  decodeTableWord 8 0x10 = some (.wmr 0 0 0 []) ∧
  decodeTableWord 8 0x80 = some .exceptionResponse ∧
  decodeTableWord 8 0x09 = none ∧
  decode (.response 0x0C 0x0C) = .ok .gcelResponse ∧
  decode (.response 0x0C 0x8C) = .ok .exceptionResponse ∧
  decode (.crc true true 0x55) = .ok .crcInit ∧
  decode (.cmd 2) = .ok .openLine

/-- The frames the reader accepts are exactly the request frames of well-formed commands, in both
modes: no bit of a request's encoding is dropped, none is free (R80, R131). The reader is the model's
inverse of the spec's formats (log entry 19); packed coil order as R142 gives it. -/
def Obligations.RequestFramesReadBack : Prop :=
  ∀ (mode : WmcMode) (bytes : List Byte) (i : Instr),
    parseRequest mode bytes = .ok i ↔ (requestFrame mode i = some bytes ∧ wellFormed mode i = true)

/-- Whatever request the block builds, the bytes in TXB are the frame the tables give that command and
read back as that command (R80, R131; the reader is the model's, log entry 19). -/
def Obligations.BuiltFrameIsTheCommand : Prop :=
  ∀ (s t : State) (i : Instr), (requestFn i).isSome = true → s.phase ≠ .send →
    exec i s = .next t → t.phase = .send →
    ∃ f, txFrame t = .ok f ∧ requestFrame s.cfg.wmcMode i = some f ∧
      parseRequest s.cfg.wmcMode f = .ok i

/-- A step runs the instruction the decoder reads: from the command registers in ENCODE, from the
function byte in VALIDATE, from a port whose event lands. -/
def Obligations.StepRunsTheDecodedInstruction : Prop :=
  (∀ (s : State) (w : PortWord) (i : Instr), s.phase = .encode → quiet s = true →
    commandOperands s = .ok w → decode w = .ok i → step s = exec i s) ∧
  (∀ (s : State) (f : Byte) (i : Instr), s.phase = .validate → quiet s = true → 4 ≤ s.rxLen →
    memReadByte .rxb 1 s = .ok f → decode (.response s.reqFn f) = .ok i → step s = exec i s) ∧
  (∀ (s : State) (init en : Bool) (din : Byte) (rest : List HostInput) (i : Instr),
    lands (.crcPort init en din) rest s → decode (.crc init en din) = .ok i →
    step s = exec i { s with hostIn := rest }) ∧
  (∀ (s : State) (c : Byte) (rest : List HostInput) (i : Instr),
    lands (.xltPort c) rest s → decode (.xlt c) = .ok i → step s = exec i { s with hostIn := rest }) ∧
  (∀ (s : State) (kind : BitVec 2) (rest : List HostInput) (i : Instr),
    lands (.command kind) rest s → decode (.cmd kind) = .ok i →
    step s = exec i { s with hostIn := rest })

/-! ## Requests (unit ENC) -/

/-- R132 to R135: RC, RDI, RHR, RIR build the frame `[station, function] ‖ be16(start) ‖ be16(qty)`
with its checksum, whatever the operands, and change nothing else. -/
def Obligations.ReadRequestsBuildTheirFrame : Prop :=
  ∀ (s : State) (stn : Byte) (start qty : Word), 8 ≤ s.cfg.txBufMax →
    (∃ t, exec (.rc stn start qty) s = .next t ∧ t.txLen = 8 ∧
      RequestBuilt s ([stn, 0x01] ++ be16 start ++ be16 qty) t) ∧
    (∃ t, exec (.rdi stn start qty) s = .next t ∧ t.txLen = 8 ∧
      RequestBuilt s ([stn, 0x02] ++ be16 start ++ be16 qty) t) ∧
    (∃ t, exec (.rhr stn start qty) s = .next t ∧ t.txLen = 8 ∧
      RequestBuilt s ([stn, 0x03] ++ be16 start ++ be16 qty) t) ∧
    (∃ t, exec (.rir stn start qty) s = .next t ∧ t.txLen = 8 ∧
      RequestBuilt s ([stn, 0x04] ++ be16 start ++ be16 qty) t)

/-- R136, R137: WSC and WSR build `[station, function] ‖ be16(addr) ‖ be16(value)` with its checksum,
any value passed through. -/
def Obligations.SingleWriteRequestsBuildTheirFrame : Prop :=
  ∀ (s : State) (stn : Byte) (addr value : Word), 8 ≤ s.cfg.txBufMax →
    (∃ t, exec (.wsc stn addr value) s = .next t ∧ t.txLen = 8 ∧
      RequestBuilt s ([stn, 0x05] ++ be16 addr ++ be16 value) t) ∧
    (∃ t, exec (.wsr stn addr value) s = .next t ∧ t.txLen = 8 ∧
      RequestBuilt s ([stn, 0x06] ++ be16 addr ++ be16 value) t)

/-- R138, R140, R141, R145: RES, GCEC, GCEL, RSID build the 4-byte frame of their code. -/
def Obligations.NoPayloadRequestsBuildTheirFrame : Prop :=
  ∀ (s : State) (stn : Byte), 4 ≤ s.cfg.txBufMax →
    (∃ t, exec (.res stn) s = .next t ∧ t.txLen = 4 ∧ RequestBuilt s [stn, 0x07] t) ∧
    (∃ t, exec (.gcec stn) s = .next t ∧ t.txLen = 4 ∧ RequestBuilt s [stn, 0x0B] t) ∧
    (∃ t, exec (.gcel stn) s = .next t ∧ t.txLen = 4 ∧ RequestBuilt s [stn, 0x0C] t) ∧
    (∃ t, exec (.rsid stn) s = .next t ∧ t.txLen = 4 ∧ RequestBuilt s [stn, 0x11] t)

/-- R139: DIAG builds a frame of `6 + 2n` bytes for any number of data words that fits, and is refused
with BufferOverflow otherwise (R147). A refused outcome also sets the model's own mark on the run (log
entry 7). -/
def Obligations.DiagBuildsAnyNumberOfWords : Prop :=
  ∀ (s : State) (stn : Byte) (sub : Word) (data : List Word),
    (6 + 2 * data.length ≤ s.cfg.txBufMax → data.length ≤ s.cfg.nvMax →
      ∃ t, exec (.diag stn sub data) s = .next t ∧ t.txLen = 6 + 2 * data.length ∧
        RequestBuilt s ([stn, 0x08] ++ be16 sub ++ be16s data) t) ∧
    (s.cfg.txBufMax < 6 + 2 * data.length ∨ s.cfg.nvMax < data.length →
      ∃ t, exec (.diag stn sub data) s = .next t ∧ Ended (.refused .bufferOverflow) s t)

/-- R144: WMR checks the count, then `2*qty`, then the buffer, and builds a frame of `9 + 2*qty` bytes.
A refused outcome also sets the model's own mark on the run (log entry 7). -/
def Obligations.WmrChecksThenBuilds : Prop :=
  ∀ (s : State) (stn : Byte) (start qty : Word) (values : List Word),
    (values.length ≠ qty.toNat →
      ∃ t, exec (.wmr stn start qty values) s = .next t ∧ Ended (.fail .argCount) s t) ∧
    (values.length = qty.toNat → 255 < 2 * qty.toNat →
      ∃ t, exec (.wmr stn start qty values) s = .next t ∧ Ended (.refused .byteCountOverflow) s t) ∧
    (values.length = qty.toNat → 2 * qty.toNat ≤ 255 →
      s.cfg.txBufMax < 9 + 2 * qty.toNat ∨ s.cfg.nvMax < values.length →
      ∃ t, exec (.wmr stn start qty values) s = .next t ∧ Ended (.refused .bufferOverflow) s t) ∧
    (values.length = qty.toNat → 2 * qty.toNat ≤ 255 → 9 + 2 * qty.toNat ≤ s.cfg.txBufMax →
      values.length ≤ s.cfg.nvMax →
      ∃ t, exec (.wmr stn start qty values) s = .next t ∧ t.txLen = 9 + 2 * qty.toNat ∧
        RequestBuilt s ([stn, 0x10] ++ be16 start ++ be16 qty ++ [BitVec.ofNat 8 (2 * qty.toNat)]
          ++ be16s values) t)

/-- R130, R143, R146, R147: WMC's checks in their order, first failure only: count, coil values,
`byte_count`, buffer, in both modes. A refused outcome also sets the model's own mark on the run (log
entry 7). -/
def Obligations.WmcChecksInOrder : Prop :=
  ∀ (s : State) (stn : Byte) (start qty : Word) (coils : List Word) (inRange : Prop) (m : Nat),
    (inRange ↔ ∀ c ∈ coils, c.toNat < 256 ∧ (s.cfg.wmcMode = .packed → c = 0 ∨ c = 1)) →
    (m = if s.cfg.wmcMode = .packed then (qty.toNat + 7) / 8 else qty.toNat) →
    (coils.length ≠ qty.toNat →
      ∃ t, exec (.wmc stn start qty coils) s = .next t ∧ Ended (.fail .argCount) s t) ∧
    (coils.length = qty.toNat → ¬ inRange →
      ∃ t, exec (.wmc stn start qty coils) s = .next t ∧ Ended (.refused .badCoilValue) s t) ∧
    (coils.length = qty.toNat → inRange → 255 < (qty.toNat + 7) / 8 →
      ∃ t, exec (.wmc stn start qty coils) s = .next t ∧ Ended (.refused .byteCountOverflow) s t) ∧
    (coils.length = qty.toNat → inRange → (qty.toNat + 7) / 8 ≤ 255 →
      s.cfg.txBufMax < 9 + m ∨ s.cfg.nvMax < coils.length →
      ∃ t, exec (.wmc stn start qty coils) s = .next t ∧ Ended (.refused .bufferOverflow) s t)

/-- WMC in `literal` mode (41_encode.md section 5): `byte_count = ceil(qty/8)`, then one byte per coil,
each unchanged. -/
def Obligations.WmcLiteralBuildsOneByteEach : Prop :=
  ∀ (s : State) (stn : Byte) (start qty : Word) (coils : List Word),
    s.cfg.wmcMode = .literal → coils.length = qty.toNat → (∀ c ∈ coils, c.toNat < 256) →
    (qty.toNat + 7) / 8 ≤ 255 → 9 + qty.toNat ≤ s.cfg.txBufMax → coils.length ≤ s.cfg.nvMax →
    ∃ t, exec (.wmc stn start qty coils) s = .next t ∧ t.txLen = 9 + qty.toNat ∧
      RequestBuilt s ([stn, 0x0F] ++ be16 start ++ be16 qty ++ [BitVec.ofNat 8 ((qty.toNat + 7) / 8)]
        ++ coils.map loByte) t

/-- WMC in `packed` mode (41_encode.md section 5): coil `i` in bit `i mod 8` of data byte `i div 8`,
unused bits 0. The bit order is the one R142 marks as general knowledge (log entry 21). -/
def Obligations.WmcPackedPlacesEachCoil : Prop :=
  ∀ (s : State) (stn : Byte) (start qty : Word) (coils : List Word),
    s.cfg.wmcMode = .packed → coils.length = qty.toNat → (∀ c ∈ coils, c = 0 ∨ c = 1) →
    (qty.toNat + 7) / 8 ≤ 255 → 9 + (qty.toNat + 7) / 8 ≤ s.cfg.txBufMax →
    coils.length ≤ s.cfg.nvMax →
    ∃ data : List Byte, data.length = (qty.toNat + 7) / 8 ∧
      (∀ i, i < 8 * data.length →
        (data.getD (i / 8) 0).getLsbD (i % 8) = decide (coils[i]? = some 1)) ∧
      ∃ t, exec (.wmc stn start qty coils) s = .next t ∧ t.txLen = 9 + (qty.toNat + 7) / 8 ∧
        RequestBuilt s ([stn, 0x0F] ++ be16 start ++ be16 qty
          ++ [BitVec.ofNat 8 ((qty.toNat + 7) / 8)] ++ data) t

/-- R148: a wrong count always ends WMC and WMR in the local ArgCount failure with code ARGCOUNT_CODE
and message 15, no transport call, no frame, no capture, TX_LEN left at the 0 the start gave it (in
ENCODE, by the invariant); DIAG is never subject to the check. -/
def Obligations.ArgCountNeverReachesTheTransport : Prop :=
  (∀ (s : State) (i : Instr) (stn : Byte) (start qty : Word) (values : List Word),
    (i = .wmc stn start qty values ∨ i = .wmr stn start qty values) →
    values.length ≠ qty.toNat → quiet s = true →
    ∃ t u, exec i s = .next t ∧ step t = .next u ∧
      u.phase = .idle ∧ u.resValid = true ∧ u.resKind = .localFailure ∧
      u.resCode = s.cfg.argCountCode ∧ u.resMsg = 15 ∧ u.reqCap = false ∧ u.rspCap = false ∧
      u.calls = s.calls ∧ u.txLen = s.txLen ∧ u.txb = s.txb ∧ u.crc = s.crc ∧
      (Inv s → s.phase = .encode → u.txLen = 0)) ∧
  (∀ (s t : State) (stn : Byte) (sub : Word) (data : List Word),
    s.pending = .nothing → exec (.diag stn sub data) s = .next t → t.pending ≠ .ending (.fail .argCount))

/-! ## Responses (unit DEC) -/

/-- R162, R163: for all 13 success rows a wrong checksum ends in CheckFails without a result, and with
the raw flag a right one gives the whole response verbatim. -/
def Obligations.ChecksumThenRawFrame : Prop :=
  ∀ (s : State) (fn : Byte) (i : Instr) (r : List Byte), decodeSuccess fn = .ok i →
    rxFrame s = .ok r → 4 ≤ r.length →
    (crc16 (r.take (r.length - 2)) ≠ joinBytes (r.getD (r.length - 1) 0) (r.getD (r.length - 2) 0) →
      ∃ t, exec i s = .next t ∧ Checked (.fail .checkFails) r s t ∧
        (quiet s = true → WritesLocalFailure 0xFFFE 13 t)) ∧
    (crc16 (r.take (r.length - 2)) = joinBytes (r.getD (r.length - 1) 0) (r.getD (r.length - 2) 0) →
      s.reqRaw = true → ∃ t, exec i s = .next t ∧ Checked (.ok (.raw r)) r s t)

/-- R166, R167: RC and RDI responses give `Bits` with the octets in frame order; a frame whose length
is not `5 + byte_count` is a layout mismatch. A refused outcome also sets the model's own mark on the
run (log entry 7). -/
def Obligations.BitsResponsesDecode : Prop :=
  (∀ (s : State) (stn fn bc : Byte) (octets : List Byte), octets.length = bc.toNat →
    s.reqRaw = false → rxFrame s = .ok (withCrc ([stn, fn, bc] ++ octets)) →
    (∃ t, exec .rcResponse s = .next t ∧
      Checked (.ok (.bits stn fn bc octets)) (withCrc ([stn, fn, bc] ++ octets)) s t) ∧
    (∃ t, exec .rdiResponse s = .next t ∧
      Checked (.ok (.bits stn fn bc octets)) (withCrc ([stn, fn, bc] ++ octets)) s t)) ∧
  (∀ (s : State) (r : List Byte), rxFrame s = .ok r → 4 ≤ r.length → checksumOk r = true →
    s.reqRaw = false → ¬ (5 ≤ r.length ∧ r.length = 5 + (r.getD 2 0).toNat) →
    (∃ t, exec .rcResponse s = .next t ∧ Checked (.refused .layoutMismatch) r s t) ∧
    (∃ t, exec .rdiResponse s = .next t ∧ Checked (.refused .layoutMismatch) r s t))

/-- R168, R169: RHR and RIR responses give `Regs`, each register big-endian, the number from
`byte_count`; an odd `byte_count` or another length is a layout mismatch. A refused outcome also sets
the model's own mark on the run (log entry 7). -/
def Obligations.RegsResponsesDecode : Prop :=
  (∀ (s : State) (stn fn bc : Byte) (ws : List Word), 2 * ws.length = bc.toNat →
    s.reqRaw = false → rxFrame s = .ok (withCrc ([stn, fn, bc] ++ be16s ws)) →
    (∃ t, exec .rhrResponse s = .next t ∧
      Checked (.ok (.regs stn fn bc ws)) (withCrc ([stn, fn, bc] ++ be16s ws)) s t) ∧
    (∃ t, exec .rirResponse s = .next t ∧
      Checked (.ok (.regs stn fn bc ws)) (withCrc ([stn, fn, bc] ++ be16s ws)) s t)) ∧
  (∀ (s : State) (r : List Byte), rxFrame s = .ok r → 4 ≤ r.length → checksumOk r = true →
    s.reqRaw = false →
    ¬ (5 ≤ r.length ∧ r.length = 5 + (r.getD 2 0).toNat ∧ (r.getD 2 0).toNat % 2 = 0) →
    (∃ t, exec .rhrResponse s = .next t ∧ Checked (.refused .layoutMismatch) r s t) ∧
    (∃ t, exec .rirResponse s = .next t ∧ Checked (.refused .layoutMismatch) r s t))

/-- R170, R171: WSC and WSR responses give `Echo` of an 8-byte frame; another length is a layout
mismatch. A refused outcome also sets the model's own mark on the run (log entry 7). -/
def Obligations.EchoResponsesDecode : Prop :=
  (∀ (s : State) (stn fn : Byte) (address value : Word), s.reqRaw = false →
    rxFrame s = .ok (withCrc ([stn, fn] ++ be16 address ++ be16 value)) →
    (∃ t, exec .wscResponse s = .next t ∧
      Checked (.ok (.echo stn fn address value))
        (withCrc ([stn, fn] ++ be16 address ++ be16 value)) s t) ∧
    (∃ t, exec .wsrResponse s = .next t ∧
      Checked (.ok (.echo stn fn address value))
        (withCrc ([stn, fn] ++ be16 address ++ be16 value)) s t)) ∧
  (∀ (s : State) (r : List Byte), rxFrame s = .ok r → 4 ≤ r.length → checksumOk r = true →
    s.reqRaw = false → r.length ≠ 8 →
    (∃ t, exec .wscResponse s = .next t ∧ Checked (.refused .layoutMismatch) r s t) ∧
    (∃ t, exec .wsrResponse s = .next t ∧ Checked (.refused .layoutMismatch) r s t))

/-- R172, R174: the RES response gives `Status` of a 5-byte frame, the GCEC response `Counter` of an
8-byte frame; another length is a layout mismatch. A refused outcome also sets the model's own mark on
the run (log entry 7). -/
def Obligations.StatusAndCounterResponsesDecode : Prop :=
  (∀ (s : State) (stn fn d : Byte), s.reqRaw = false → rxFrame s = .ok (withCrc [stn, fn, d]) →
    ∃ t, exec .resResponse s = .next t ∧ Checked (.ok (.status stn fn d)) (withCrc [stn, fn, d]) s t) ∧
  (∀ (s : State) (stn fn : Byte) (status eventCount : Word), s.reqRaw = false →
    rxFrame s = .ok (withCrc ([stn, fn] ++ be16 status ++ be16 eventCount)) →
    ∃ t, exec .gcecResponse s = .next t ∧
      Checked (.ok (.counter stn fn status eventCount))
        (withCrc ([stn, fn] ++ be16 status ++ be16 eventCount)) s t) ∧
  (∀ (s : State) (r : List Byte), rxFrame s = .ok r → 4 ≤ r.length → checksumOk r = true →
    s.reqRaw = false →
    (r.length ≠ 5 →
      ∃ t, exec .resResponse s = .next t ∧ Checked (.refused .layoutMismatch) r s t) ∧
    (r.length ≠ 8 →
      ∃ t, exec .gcecResponse s = .next t ∧ Checked (.refused .layoutMismatch) r s t))

/-- R175: the GCEL response gives `Log` with `byte_count − 6` events; a length under 11 or not `5 +
byte_count` is a layout mismatch. A refused outcome also sets the model's own mark on the run (log
entry 7). -/
def Obligations.LogResponseDecodes : Prop :=
  (∀ (s : State) (stn fn bc : Byte) (status eventCount messageCount : Word) (events : List Byte),
    events.length + 6 = bc.toNat → s.reqRaw = false →
    rxFrame s = .ok (withCrc ([stn, fn, bc] ++ be16 status ++ be16 eventCount ++ be16 messageCount
      ++ events)) →
    ∃ t, exec .gcelResponse s = .next t ∧
      Checked (.ok (.log stn fn bc status eventCount messageCount events))
        (withCrc ([stn, fn, bc] ++ be16 status ++ be16 eventCount ++ be16 messageCount
          ++ events)) s t) ∧
  (∀ (s : State) (r : List Byte), rxFrame s = .ok r → 4 ≤ r.length → checksumOk r = true →
    s.reqRaw = false → ¬ (11 ≤ r.length ∧ r.length = 5 + (r.getD 2 0).toNat) →
    ∃ t, exec .gcelResponse s = .next t ∧ Checked (.refused .layoutMismatch) r s t)

/-- R173, R176, R177, R178: DIAG, WMC, WMR and RSID responses give the verified frame as it is, with
the raw flag and without it. -/
def Obligations.RawResponsesGiveTheFrame : Prop :=
  ∀ (s : State) (r : List Byte), rxFrame s = .ok r → 4 ≤ r.length → checksumOk r = true →
    (∃ t, exec .diagResponse s = .next t ∧ Checked (.ok (.raw r)) r s t) ∧
    (∃ t, exec .wmcResponse s = .next t ∧ Checked (.ok (.raw r)) r s t) ∧
    (∃ t, exec .wmrResponse s = .next t ∧ Checked (.ok (.raw r)) r s t) ∧
    (∃ t, exec .rsidResponse s = .next t ∧ Checked (.ok (.raw r)) r s t)

/-- R179: the exception response reads the byte at offset 2 and nothing else of the frame but its
presence; its outcome is the DEVICE failure with that byte as code, `XROM` of it as message, request
and response captured, and no result. -/
def Obligations.ExceptionResponseFails : Prop :=
  ∀ (s : State) (r : List Byte), rxFrame s = .ok r → 4 ≤ r.length → quiet s = true →
    ∃ t u, exec .exceptionResponse s = .next t ∧
      Ended (.fail (.deviceException (r.getD 2 0))) s t ∧ step t = .next u ∧
      u.phase = .idle ∧ u.resValid = true ∧ u.resKind = .device ∧
      u.resCode = (r.getD 2 0).setWidth 16 ∧ u.resMsg = xrom (r.getD 2 0) ∧
      u.reqCap = true ∧ u.rspCap = true ∧ resultView u = none

/-- R160: a response under 4 bytes ends in TooShort (local, code −1) whatever it holds, before anything
else is looked at. -/
def Obligations.ShortResponsesFailWhateverTheyHold : Prop :=
  ∀ s : State, s.phase = .validate → quiet s = true → s.rxLen < 4 →
    ∃ t, step s = .next t ∧ Ended (.fail .tooShort) s t ∧ WritesLocalFailure 0xFFFF 12 t

/-- R161: the function byte decides before the checksum: `REQ_FN + 0x80` gives the device exception
with the byte at offset 2, any other byte but REQ_FN gives −3; CRC is not touched. -/
def Obligations.FunctionByteDecidesBeforeChecksum : Prop :=
  ∀ (s : State) (r : List Byte), s.phase = .validate → quiet s = true → rxFrame s = .ok r →
    4 ≤ r.length → r.getD 1 0 ≠ s.reqFn →
    ((r.getD 1 0).toNat = s.reqFn.toNat + 0x80 →
      ∃ t, step s = .next t ∧ Ended (.fail (.deviceException (r.getD 2 0))) s t) ∧
    ((r.getD 1 0).toNat ≠ s.reqFn.toNat + 0x80 →
      ∃ t, step s = .next t ∧ Ended (.fail .illegalErrorCode) s t ∧ WritesLocalFailure 0xFFFD 14 t)

/-- The step in VALIDATE computes exactly the typed validation of the response (10_state.md asks that
the register view and the typed view agree; R160 to R165, R217), touching CRC only when step 6 is
reached. A refused outcome also sets the model's own mark on the run (log entry 7). -/
def Obligations.ValidateStepAgreesWithTypedView : Prop :=
  ∀ (s : State) (r : List Byte), s.phase = .validate → quiet s = true → rxFrame s = .ok r →
    catalogued s.reqFn = true →
    step s = .next { s with
      crc := if 4 ≤ r.length ∧ r.getD 1 0 = s.reqFn then crc16 (r.take (r.length - 2)) else s.crc
      phase := .done
      pending := .ending (validateResponse s.reqFn s.reqRaw r)
      refusal := s.refusal.or (validateResponse s.reqFn s.reqRaw r).reason }

/-- For every structured result that fits a function code, the success response built for it by the
formats of R82 decodes under that code to that result (R181 in general; R181 is the spec's own
derivation). -/
def Obligations.EveryResultRoundTrips : Prop :=
  ∀ (s : State) (res : Result), s.phase = .validate → quiet s = true → s.reqRaw = false →
    Result.fits res s.reqFn = true → rxFrame s = .ok res.frame →
    ∃ t, step s = .next t ∧ Checked (.ok res) res.frame s t

/-- Nothing of a response is compared with the request but the function byte (R180, the spec's own
derivation): two blocks with the same latches and the same response end alike, whatever their command
registers, request buffers, handle or anything else hold. -/
def Obligations.OutcomeDependsOnLatchesAndResponse : Prop :=
  ∀ (s s' t : State) (r : List Byte), s.phase = .validate → s'.phase = .validate →
    quiet s = true → quiet s' = true → rxFrame s = .ok r → rxFrame s' = .ok r →
    s'.reqFn = s.reqFn → s'.reqRaw = s.reqRaw → step s = .next t →
    ∃ t', step s' = .next t' ∧ t'.pending = t.pending ∧ t'.phase = t.phase

/-- A result written in IDLE is the window on RXB that was decoded (R29), the failure record holds the
request and response bytes as captured (R240, R246), and both, with every view of R225, stay as they
are in IDLE until a start, OPEN, CLOSE or `rst` (R26, R291). -/
def Obligations.OutcomeStaysReadable : Prop :=
  (∀ (s t : State) (res : Result), Inv s → s.phase = .done → quiet s = true →
    s.pending = .ending (.ok res) → step s = .next t → resultView t = some res) ∧
  (∀ (s t : State) (f : Failure) (q r : List Byte), s.phase = .done → quiet s = true →
    s.pending = .ending (.fail f) → txFrame s = .ok q → rxFrame s = .ok r → step s = .next t →
    ∃ rec, failureRecord t = some rec ∧ rec.kind = (Ending.fail f).kind ∧
      rec.code = (Ending.fail f).code s.cfg ∧ rec.message = (Ending.fail f).msg ∧
      rec.cause = (Ending.fail f).cause ∧
      rec.request = (if (Ending.fail f).reqCap then some q else none) ∧
      rec.response = (if (Ending.fail f).rspCap then some r else none)) ∧
  (∀ s t : State, s.phase = .idle → step s = .next t → (∀ rest, ¬ lands .rst rest s) →
    (∀ kind rest, kind ≠ 0 → ¬ lands (.command kind) rest s) →
    resultView t = resultView s ∧ failureRecord t = failureRecord s ∧ kindView t = kindView s ∧
    codeView t = codeView s ∧ msgView t = msgView s ∧ refuseView t = refuseView s ∧
    reqCapView t = reqCapView s ∧ rspCapView t = rspCapView s ∧ causeView t = causeView s ∧
    txView t = txView s ∧ rxView t = rxView s ∧ txLenView t = txLenView s ∧
    rxLenView t = rxLenView s ∧ xopenView t = xopenView s)

/-! ## CRC and XLT -/

/-- R111, R112 on the CRC port in IDLE: INIT and UPDATE change CRC as they say and nothing else, init
winning over enable, and HOLD changes nothing (R114); while an exchange runs the port's controls are
ignored (R120). -/
def Obligations.CrcPortOperations : Prop :=
  ∀ (s : State) (b : Byte),
    (s.phase = .idle →
      exec .crcInit s = .next { s with crc := 0xFFFF } ∧
      (let iter := (fun c : Word => if c.getLsbD 0 then (c >>> 1) ^^^ 0xA001#16 else c >>> 1);
        exec (.crcUpdate b) s = .next { s with crc := iter (iter (iter (iter (iter (iter (iter (iter (s.crc ^^^ b.setWidth 16)))))))) }) ∧
      exec .crcHold s = .next s) ∧
    (s.phase ≠ .idle →
      exec .crcInit s = .next s ∧ exec (.crcUpdate b) s = .next s ∧ exec .crcHold s = .next s) ∧
    decode (.crc true true b) = .ok .crcInit ∧ decode (.crc true false b) = .ok .crcInit ∧
    decode (.crc false true b) = .ok (.crcUpdate b) ∧ decode (.crc false false b) = .ok .crcHold

/-- R111: an iteration tests bit 0 before the shift; one that XORs leaves bit 15 set and bit 13 the
inverse of the old bit 14, one that does not is a logical right shift. -/
def Obligations.CrcIterationBits : Prop :=
  ∀ c : Word,
    (c.getLsbD 0 = true → (crcIter c).getLsbD 15 = true ∧
      (crcIter c).getLsbD 13 = !c.getLsbD 14 ∧ (crcIter c).getLsbD 0 = !c.getLsbD 1) ∧
    (c.getLsbD 0 = false → crcIter c = c >>> 1)

/-- R113: CRC.INIT and then CRC.UPDATE for each byte of a message, through the port, leaves `crc16` of
the message in CRC and changes nothing else. -/
def Obligations.CrcPortComputesCrc16 : Prop :=
  ∀ (s : State) (msg : List Byte) (rest : List HostInput), s.phase = .idle →
    s.hostIn = .now (.crcPort true false 0) :: (msg.map fun b => HostInput.now (.crcPort false true b))
      ++ rest →
    steps (msg.length + 1) s = .next { s with crc := crc16 msg, hostIn := rest }

/-- The residue law and the prefix law (40_crc.md section 3, R117 and R118, the spec's own
derivations): a message with its checksum appended has crc16 0, and the accumulator carries over. -/
def Obligations.CrcResidueAndPrefix : Prop :=
  (∀ s : List Byte, crc16 (s ++ le16 (crc16 s)) = 0) ∧
  (∀ s t : List Byte, crc16 (s ++ t) = t.foldl crcStep (crc16 s))

/-- The CRC step is linear over XOR (40_crc.md section 3, R118, the spec's own derivation). -/
def Obligations.CrcStepIsLinear : Prop :=
  ∀ (c d : Word) (x y : Byte), crcStep (c ^^^ d) (x ^^^ y) = crcStep c x ^^^ crcStep d y

/-- A valid frame followed by any number of zero bytes still passes the checksum (R162's corner case,
the spec's own derivation). -/
def Obligations.TrailingZerosPassTheChecksum : Prop :=
  ∀ (body : List Byte) (k : Nat), checksumOk (withCrc body ++ List.replicate k 0) = true

/-- R200: XLT.LOOKUP puts the ten defined codes on `xlt_id` as they are and 0 for every other code, in
any phase, and changes nothing else; the ten descriptions are the table's. -/
def Obligations.XltLookupTable : Prop :=
  (∀ (s : State) (c : Byte), ∃ id : BitVec 4, exec (.xltLookup c) s = .next { s with xltId := id } ∧
    (c.toNat ∈ [0x00, 0x01, 0x02, 0x03, 0x04, 0x05, 0x06, 0x08, 0x0A, 0x0B] → id.toNat = c.toNat) ∧
    (c.toNat ∉ [0x00, 0x01, 0x02, 0x03, 0x04, 0x05, 0x06, 0x08, 0x0A, 0x0B] → id = 0)) ∧
  (∀ row ∈ [((0x00 : Byte), "Undefined failure code"), (0x01, "Illegal function"),
      (0x02, "Illegal data address"), (0x03, "Illegal data value"), (0x04, "Server device failure"),
      (0x05, "Acknowledge"), (0x06, "Server device busy"), (0x08, "Memory parity error"),
      (0x0A, "Gateway path unavailable"), (0x0B, "Gateway target device failed to respond")],
    messageText (xrom row.1) = some row.2)

/-! ## The exchange (unit SEQ) -/

/-- R211: a start in IDLE latches FN and RAW, clears the outcome and the lengths and goes to ENCODE,
changing nothing else (what an unwritten register latches is free, log entry 5); from there on the
command registers are frozen. -/
def Obligations.StartLatchesTheCommand : Prop :=
  (∀ (s : State) (rest : List HostInput), s.phase = .idle → lands (.command 1) rest s →
    ∃ f x, step s = .next { s with
        hostIn := rest, reqFn := f, reqRaw := x, resValid := false, reqCap := false, rspCap := false
        txLen := 0, rxLen := 0, phase := .encode, free := s.free + 1 } ∧
      (∀ g, s.fn = some g → f = g) ∧ (∀ y, s.raw = some y → x = y)) ∧
  (∀ s t : State, s.phase ≠ .idle → (∀ rest, ¬ lands .rst rest s) → step s = .next t → sameCommand s t)

/-- R88, R22: in ENCODE a function code outside the catalogue ends in UnknownFunction whatever else is
unwritten; an unwritten register the operation reads (R23) ends in UnwrittenOperand; nothing is built
and nothing sent. That an unwritten FN is UnwrittenOperand is the model's reading (log entry 5) and is
not claimed. A refused outcome also sets the model's own mark on the run (log entry 7). -/
def Obligations.EncodeRefusesUnknownAndUnwritten : Prop :=
  ∀ (s : State) (f : Byte), s.phase = .encode → quiet s = true → s.fn = some f →
    (f.toNat ∉ [1, 2, 3, 4, 5, 6, 7, 8, 11, 12, 15, 16, 17] →
      ∃ t, step s = .next t ∧ Ended (.refused .unknownFunction) s t) ∧
    (f.toNat ∈ [1, 2, 3, 4, 5, 6, 7, 8, 11, 12, 15, 16, 17] →
      (s.stn = none ∨ s.raw = none ∨
        (f.toNat ∈ [1, 2, 3, 4, 5, 6, 8, 15, 16] ∧ s.a = none) ∨
        (f.toNat ∈ [1, 2, 3, 4, 5, 6, 15, 16] ∧ s.b = none) ∨
        (f.toNat ∈ [8, 15, 16] ∧ s.nv = none) ∨
        (f.toNat ∈ [8, 15, 16] ∧
          ∃ n k, s.nv = some n ∧ k < n ∧ k < s.cfg.nvMax ∧ Sparse.read s.v k = none)) →
      ∃ t, step s = .next t ∧ Ended (.refused .unwrittenOperand) s t)

/-- R23: with every register it reads written, each operation runs on exactly the operands of R23's
table, whatever the registers it does not read hold. -/
def Obligations.OperandsComeFromTheirRegisters : Prop :=
  ∀ (s : State) (stn : Byte) (raw : Bool), s.phase = .encode → quiet s = true →
    s.stn = some stn → s.raw = some raw →
    (∀ a b : Word, s.a = some a → s.b = some b →
      (s.fn = some 0x01 → step s = exec (.rc stn a b) s) ∧
      (s.fn = some 0x02 → step s = exec (.rdi stn a b) s) ∧
      (s.fn = some 0x03 → step s = exec (.rhr stn a b) s) ∧
      (s.fn = some 0x04 → step s = exec (.rir stn a b) s) ∧
      (s.fn = some 0x05 → step s = exec (.wsc stn a b) s) ∧
      (s.fn = some 0x06 → step s = exec (.wsr stn a b) s)) ∧
    (s.fn = some 0x07 → step s = exec (.res stn) s) ∧
    (s.fn = some 0x0B → step s = exec (.gcec stn) s) ∧
    (s.fn = some 0x0C → step s = exec (.gcel stn) s) ∧
    (s.fn = some 0x11 → step s = exec (.rsid stn) s) ∧
    (∀ (a : Word) (vals : List Word), s.a = some a → s.nv = some vals.length →
      vals.length ≤ s.cfg.nvMax → (∀ k, k < vals.length → Sparse.read s.v k = vals[k]?) →
      (s.fn = some 0x08 → step s = exec (.diag stn a vals) s) ∧
      (∀ b : Word, s.b = some b →
        (s.fn = some 0x0F → step s = exec (.wmc stn a b vals) s) ∧
        (s.fn = some 0x10 → step s = exec (.wmr stn a b vals) s)))

/-- R213: SEND hands the whole frame to one `send`; `Ok` leads to RECEIVE, `Err(e)` ends the exchange
with that transport failure and no `read`; without an answer the block waits (R288). -/
def Obligations.SendCallsOnceAndFollowsTheAnswer : Prop :=
  ∀ (s : State) (f : List Byte), s.phase = .send → quiet s = true → txFrame s = .ok f →
    (∀ rest, s.lineAns = .ok :: rest →
      step s = .next { s with lineAns := rest, calls := s.calls ++ [.send f], phase := .receive }) ∧
    (∀ e rest, s.lineAns = .err e :: rest →
      ∃ t, step s = .next t ∧ WritesTransportFailure e t ∧
        t = { s with lineAns := rest, calls := s.calls ++ [.send f], phase := .done, pending := .ending (.fail (.transportFailure e)) }) ∧
    (s.lineAns = [] → step s = .next s)

/-- R215, R219: RECEIVE stores the bytes of one `read` in order, or ends in the transport failure, or
in BufferOverflow when there are more than RXBUF_MAX; without an answer the block waits (R288). That
the overflow stores nothing is the model's choice (log entry 10) and is not claimed. -/
def Obligations.ReceiveStoresTheResponse : Prop :=
  ∀ s : State, s.phase = .receive → quiet s = true →
    (∀ r rest, s.readAns = .bytes r :: rest → r.length ≤ s.cfg.rxBufMax →
      ∃ m, step s = .next { s with readAns := rest, calls := s.calls ++ [.read], rxb := m, rxLen := r.length, phase := .validate } ∧
        (∀ k, k < r.length → Sparse.read m k = r[k]?) ∧
        (∀ k, r.length ≤ k → Sparse.read m k = Sparse.read s.rxb k)) ∧
    (∀ r rest, s.readAns = .bytes r :: rest → s.cfg.rxBufMax < r.length →
      ∃ t, step s = .next t ∧ t.phase = .done ∧ t.pending = .ending (.refused .bufferOverflow) ∧
        t.calls = s.calls ++ [.read]) ∧
    (∀ e rest, s.readAns = .err e :: rest →
      ∃ t, step s = .next t ∧ WritesTransportFailure e t ∧
        t = { s with readAns := rest, calls := s.calls ++ [.read], phase := .done, pending := .ending (.fail (.transportFailure e)) }) ∧
    (s.readAns = [] → step s = .next s)

/-- R218: DONE writes the outcome registers of its table, row by row, sets RES_VALID and returns to
IDLE; buffers, CRC, latches, command registers, handle bit and what is on the ports (the host's inputs,
the transport's answers and calls, the XLT output) are untouched; after an ArgCount TX_LEN is 0 (by the
invariant). -/
def Obligations.DoneWritesTheOutcomeTable : Prop :=
  ∀ (s : State) (e : Ending), s.phase = .done → quiet s = true → s.pending = .ending e →
    ∃ t, step s = .next t ∧ OutcomeWritten e t ∧ sameCommand s t ∧
      t.txb = s.txb ∧ t.txLen = s.txLen ∧ t.rxb = s.rxb ∧ t.rxLen = s.rxLen ∧ t.crc = s.crc ∧
      t.reqFn = s.reqFn ∧ t.reqRaw = s.reqRaw ∧ t.xopen = s.xopen ∧ t.calls = s.calls ∧
      t.xltId = s.xltId ∧ t.hostIn = s.hostIn ∧ t.lineAns = s.lineAns ∧ t.readAns = s.readAns ∧
      (∀ res, e = .ok res → t.resKind = .ok ∧ t.reqCap = false ∧ t.rspCap = false) ∧
      (e = .fail .argCount → t.resKind = .localFailure ∧ t.resCode = s.cfg.argCountCode ∧
        t.resMsg = 15 ∧ t.reqCap = false ∧ t.rspCap = false ∧ (Inv s → t.txLen = 0)) ∧
      (e = .fail .tooShort → t.resKind = .localFailure ∧ t.resCode = 0xFFFF ∧ t.resMsg = 12 ∧
        t.reqCap = true ∧ t.rspCap = true) ∧
      (e = .fail .checkFails → t.resKind = .localFailure ∧ t.resCode = 0xFFFE ∧ t.resMsg = 13 ∧
        t.reqCap = true ∧ t.rspCap = true) ∧
      (e = .fail .illegalErrorCode → t.resKind = .localFailure ∧ t.resCode = 0xFFFD ∧
        t.resMsg = 14 ∧ t.reqCap = true ∧ t.rspCap = true) ∧
      (∀ x, e = .fail (.deviceException x) → t.resKind = .device ∧ t.resCode = x.setWidth 16 ∧
        t.resMsg = xrom x ∧ t.reqCap = true ∧ t.rspCap = true) ∧
      (∀ x, e = .fail (.transportFailure x) → t.resKind = .transport ∧ t.xerr = x ∧
        t.reqCap = true ∧ t.rspCap = false) ∧
      (∀ r, e = .refused r → t.resKind = .refused ∧ t.resRefuse = r.bits ∧ t.reqCap = false ∧
        t.rspCap = false)

/-- R222, R223: OPEN and CLOSE in IDLE clear the outcome and hold DONE until the transport answers;
`Ok` sets (clears) XOPEN with outcome OK, `Err(e)` leaves it with the transport failure and no capture;
no buffer, latch, CRC or command register changes (what XERR holds after an OK outcome is not claimed
here). -/
def Obligations.OpenAndCloseFollowTheTransport : Prop :=
  ∀ (s : State) (i : Instr) (up : Bool) (call : TransportCall),
    ((i = .openLine ∧ up = true ∧ call = .openLine) ∨
      (i = .closeLine ∧ up = false ∧ call = .closeLine)) →
    s.phase = .idle →
    ∃ t, exec i s = .next t ∧ t.phase = .done ∧
      t = { s with resValid := false, reqCap := false, rspCap := false, phase := .done, pending := t.pending } ∧
      (quiet s = true → s.lineAns = [] → step t = .next t) ∧
      (∀ rest, quiet s = true → s.lineAns = .ok :: rest → ∃ u, step t = .next u ∧
        u.xopen = up ∧ u.resValid = true ∧ u.resKind = .ok ∧ u.phase = .idle ∧
        u = { s with xopen := up, xerr := u.xerr, resValid := true, resKind := .ok, resCode := u.resCode, resMsg := u.resMsg, resRefuse := u.resRefuse, reqCap := false, rspCap := false, pending := .nothing, free := u.free, lineAns := rest, calls := s.calls ++ [call] }) ∧
      (∀ e rest, quiet s = true → s.lineAns = .err e :: rest → ∃ u, step t = .next u ∧
        u.xopen = s.xopen ∧ u.resValid = true ∧ u.resKind = .transport ∧ u.xerr = e ∧
        u.phase = .idle ∧
        u = { s with resValid := true, resKind := .transport, resCode := u.resCode, resMsg := u.resMsg, resRefuse := u.resRefuse, reqCap := false, rspCap := false, xerr := e, pending := .nothing, free := u.free, lineAns := rest, calls := s.calls ++ [call] })

/-- R210: one exchange from its start to IDLE gives exactly the outcome of the seven-step function
`exchange(cmd)` of the typed view, with the transport's two answers as inputs, and makes exactly the
calls that function makes; a result it returns is what the host then reads (R29, R32); the run is
marked refused exactly by a refused outcome (the model's mark, log entry 7). -/
def Obligations.ExchangeRefinesTheTypedAlgorithm : Prop :=
  ∀ (s : State) (rest : List HostInput) (w : PortWord) (i : Instr) (raw : Bool)
    (sent : CallAnswer) (moreLine : List CallAnswer) (got : ReadAnswer) (moreRead : List ReadAnswer),
    s.phase = .idle → s.hostIn = .now (.command 1) :: rest → quiet { s with hostIn := rest } = true →
    commandOperands s = .ok w → decode w = .ok i → s.raw = some raw →
    s.lineAns = sent :: moreLine → s.readAns = got :: moreRead →
    ∃ k t, 3 ≤ k ∧ k ≤ 6 ∧ steps k s = .next t ∧
      OutcomeWritten (exchangeOutcome s.cfg i raw sent got) t ∧
      (∀ res, exchangeOutcome s.cfg i raw sent got = .ok res → resultView t = some res) ∧
      t.refusal = s.refusal.or (exchangeOutcome s.cfg i raw sent got).reason ∧
      t.calls = s.calls ++
        (match encodeCommand s.cfg i, sent with
          | .error _, _ => []
          | .ok f, .err _ => [.send f]
          | .ok f, .ok => [.send f, .read])

/-! ## Whole-machine rules -/

/-- R16, R243: a refused outcome marks the run from the point where it is met, with its reason, and
nothing ever takes the mark away, not even `rst`: a state after it is never a final good state, and if
a state is unmarked, no state of the run before it was marked, so "no refusal occurred" can be read off
the last state. The mark is the model's own (log entry 7). -/
def Obligations.ARefusalMarksTheWholeRun : Prop :=
  (∀ (s t : State) (r : Reason), step s = .next t → s.refusal = some r → t.refusal = some r) ∧
  (∀ (s t : State) (r : Reason), step s = .next t → s.refusal = none → t.refusal = some r →
    s.phase ≠ .done ∧ s.phase ≠ .idle ∧ t.phase = .done ∧ t.pending = .ending (.refused r)) ∧
  (∀ (s t : State) (r : Reason), step s = .next t → s.refusal = none → s.phase ≠ .done →
    t.phase = .done → t.pending = .ending (.refused r) → t.refusal = some r) ∧
  (∀ (k : Nat) (s t : State), steps k s = .next t → notRefused t = true → notRefused s = true) ∧
  (∀ (k : Nat) (s t : State) (r : Reason), steps k s = .next t → s.refusal = some r →
    goodEnd t = false)

/-- R9, R224, 93_implementation_defined.md U9: a transport error is carried unchanged and never looked
into, whatever its type: renaming the errors in a state renames them in what the step answers and
changes nothing else. Only `rst` names an error value, the model's reset value of XERR (log entry 3); a
renaming that keeps it commutes with `rst` too. -/
def Obligations.ErrorValuesAreCarriedUnchanged : Prop :=
  ∀ (f : TransportError → TransportError) (s : State),
    ((∀ rest, ¬ lands .rst rest s) ∨ f TransportError.first = TransportError.first) →
    step (s.mapError f) = mapNext (State.mapError f) (step s)

/-- XERR changes only when a transport failure is written, and then holds that failure's value (R218,
R222, R224), or at `rst`; that it KEEPS its value at every other outcome is the model's reading (log
entry 18). -/
def Obligations.XerrHoldsBetweenTransportFailures : Prop :=
  ∀ s t : State, step s = .next t → (∀ rest, ¬ lands .rst rest s) →
    t.xerr = s.xerr ∨
      (s.phase = .done ∧ t.phase = .idle ∧ t.resValid = true ∧ t.resKind = .transport ∧
        (s.pending = .ending (.fail (.transportFailure t.xerr)) ∨
          s.pending = .ending (.fail (.handleFailure t.xerr)) ∨
          (s.lineAns.head? = some (.err t.xerr) ∧ (s.pending = .opening ∨ s.pending = .closing))))
end

