-- ==== Sys2Proof/Laws/Memory.lean ====
section
/-! SUPPORT. The laws of the sparse spaces: read after write, canonical form kept, and what reading a
run of bytes gives. -/

namespace Sys2Proof.Machine

@[simp] theorem sparse_read_nil {α : Type} (k : Nat) : Sparse.read ([] : List (Nat × α)) k = none := rfl

/-- A read after a write to the same index gives the value written. -/
@[simp] theorem sparse_read_write_same {α : Type} (m : List (Nat × α)) (k : Nat) (y : α) :
    Sparse.read (Sparse.write m k y) k = some y := by
  induction m with
  | nil => simp [Sparse.write, Sparse.read]
  | cons c m ih =>
    obtain ⟨i, x⟩ := c
    simp only [Sparse.write]
    split
    · simp [Sparse.read]
    · split
      · simp [Sparse.read]
      · rename_i hne
        simp [Sparse.read, Ne.symm hne, ih]

/-- A write leaves every other index alone. -/
theorem sparse_read_write_other {α : Type} (m : List (Nat × α)) {j k : Nat} (y : α) (h : j ≠ k) :
    Sparse.read (Sparse.write m k y) j = Sparse.read m j := by
  induction m with
  | nil => simp [Sparse.write, Sparse.read, Ne.symm h]
  | cons c m ih =>
    obtain ⟨i, x⟩ := c
    simp only [Sparse.write]
    split
    · simp [Sparse.read, Ne.symm h]
    · split
      · rename_i _ hki
        subst hki
        simp [Sparse.read, Ne.symm h]
      · simp [Sparse.read, ih]

/-- Read after write, both cases. -/
theorem sparse_read_write {α : Type} (m : List (Nat × α)) (j k : Nat) (y : α) :
    Sparse.read (Sparse.write m k y) j = if j = k then some y else Sparse.read m j := by
  split
  · next h => subst h; simp
  · next h => exact sparse_read_write_other m y h

/-- The canonical form is that of strictly rising indices, pairwise. -/
theorem sparse_wf_iff {α : Type} (m : List (Nat × α)) :
    Sparse.wf m = true ↔ m.Pairwise (fun p q => p.1 < q.1) := by
  induction m with
  | nil => simp [Sparse.wf]
  | cons c m ih =>
    cases m with
    | nil => simp [Sparse.wf]
    | cons d m =>
      simp only [Sparse.wf, Bool.and_eq_true, decide_eq_true_eq, ih, List.pairwise_cons]
      constructor
      · rintro ⟨h, h1, h2⟩
        refine ⟨?_, h1, h2⟩
        intro q hq
        rcases List.mem_cons.1 hq with rfl | hq
        · exact h
        · exact Nat.lt_trans h (h1 q hq)
      · rintro ⟨h, h1, h2⟩
        exact ⟨h d (List.mem_cons_self ..), h1, h2⟩

/-- Every index listed after a write was listed before or is the one written. -/
theorem sparse_mem_write {α : Type} (m : List (Nat × α)) (k : Nat) (y : α) {p : Nat × α}
    (h : p ∈ Sparse.write m k y) : p = (k, y) ∨ p ∈ m := by
  induction m with
  | nil => simpa [Sparse.write] using h
  | cons c m ih =>
    obtain ⟨i, x⟩ := c
    simp only [Sparse.write] at h
    split at h
    · exact List.mem_cons.1 h
    · split at h
      · rcases List.mem_cons.1 h with h | h
        · exact .inl h
        · exact .inr (List.mem_cons_of_mem _ h)
      · rcases List.mem_cons.1 h with h | h
        · exact .inr (h ▸ List.mem_cons_self ..)
        · exact (ih h).imp id (List.mem_cons_of_mem _)

/-- A write keeps the canonical form. -/
theorem sparse_wf_write {α : Type} (m : List (Nat × α)) (k : Nat) (y : α)
    (h : Sparse.wf m = true) : Sparse.wf (Sparse.write m k y) = true := by
  rw [sparse_wf_iff] at h ⊢
  induction m with
  | nil => simp [Sparse.write]
  | cons c m ih =>
    obtain ⟨i, x⟩ := c
    obtain ⟨hc, hm⟩ := List.pairwise_cons.1 h
    simp only [Sparse.write]
    split
    · next hk =>
      refine List.pairwise_cons.2 ⟨?_, h⟩
      intro q hq
      rcases List.mem_cons.1 hq with rfl | hq
      · exact hk
      · exact Nat.lt_trans hk (hc q hq)
    · split
      · next _ hki =>
        subst hki
        exact List.pairwise_cons.2 ⟨hc, hm⟩
      · next hk hki =>
        refine List.pairwise_cons.2 ⟨?_, ih hm⟩
        intro q hq
        rcases sparse_mem_write m k y hq with rfl | hq
        · show i < k
          omega
        · exact hc q hq

/-- A memory in canonical form is determined by what it reads: equal contents are equal data. -/
theorem sparse_ext {α : Type} (m m' : List (Nat × α)) (h : Sparse.wf m = true)
    (h' : Sparse.wf m' = true) (heq : ∀ k, Sparse.read m k = Sparse.read m' k) : m = m' := by
  rw [sparse_wf_iff] at h h'
  have none_below : ∀ (l : List (Nat × α)) (k : Nat), (∀ q ∈ l, k < q.1) → Sparse.read l k = none := by
    intro l k hl
    induction l with
    | nil => rfl
    | cons c l ih =>
      have hc := hl c (List.mem_cons_self ..)
      simp only [Sparse.read]
      rw [if_neg (by omega)]
      exact ih fun q hq => hl q (List.mem_cons_of_mem _ hq)
  induction m generalizing m' with
  | nil =>
    cases m' with
    | nil => rfl
    | cons c m' => simpa [Sparse.read] using heq c.1
  | cons c m ih =>
    obtain ⟨i, x⟩ := c
    cases m' with
    | nil => simpa [Sparse.read] using heq i
    | cons c' m' =>
      obtain ⟨j, y⟩ := c'
      obtain ⟨hc, hm⟩ := List.pairwise_cons.1 h
      obtain ⟨hc', hm'⟩ := List.pairwise_cons.1 h'
      have hi := heq i
      have hj := heq j
      simp only [Sparse.read, if_true] at hi hj
      have hij : i = j := by
        by_contra hne
        rw [if_neg (Ne.symm hne)] at hi
        rw [if_neg hne] at hj
        rcases Nat.lt_or_gt_of_ne hne with hlt | hlt
        · rw [none_below m' i fun q hq => Nat.lt_trans hlt (hc' q hq)] at hi
          simp at hi
        · rw [none_below m j fun q hq => Nat.lt_trans hlt (hc q hq)] at hj
          simp at hj
      subst hij
      simp only [if_true, Option.some.injEq] at hi
      subst hi
      congr 1
      apply ih m' hm hm'
      intro k
      by_cases hk : i = k
      · subst hk
        rw [none_below m i hc, none_below m' i hc']
      · simpa [Sparse.read, hk] using heq k

/-- What a run of stored bytes reads as, inside and outside the run. -/
theorem read_writeBytes (xs : List Byte) (m : Memory) (k j : Nat) :
    Sparse.read (writeBytes m k xs) j =
      if k ≤ j ∧ j < k + xs.length then xs[j - k]? else Sparse.read m j := by
  induction xs generalizing m k with
  | nil => simp [writeBytes]
  | cons x xs ih =>
    simp only [writeBytes, ih, sparse_read_write, List.length_cons]
    by_cases h1 : k + 1 ≤ j ∧ j < k + 1 + xs.length
    · rw [if_pos h1, if_pos (by omega), show j - k = (j - (k + 1)) + 1 by omega]
      simp
    · rw [if_neg h1]
      by_cases h2 : j = k
      · subst h2; simp
      · rw [if_neg h2, if_neg (by omega)]

/-- Storing bytes keeps the canonical form. -/
theorem wf_writeBytes (xs : List Byte) (m : Memory) (k : Nat) (h : Memory.wf m = true) :
    Memory.wf (writeBytes m k xs) = true := by
  induction xs generalizing m k with
  | nil => exact h
  | cons x xs ih => exact ih _ _ (sparse_wf_write m k x h)

/-- A byte read succeeds exactly below the valid length where a byte is held. -/
theorem memReadByte_ok_iff (sp : Space) (a : Nat) (s : State) (x : Byte) :
    memReadByte sp a s = .ok x ↔ a < s.validLen sp ∧ Sparse.read (s.space sp) a = some x := by
  unfold memReadByte
  split
  · next h => cases hr : Sparse.read (s.space sp) a <;> simp [h]
  · next h => simp [h]

/-- A run of bytes read is the run held: its length, and each byte by its own read. -/
theorem memReadBytes_ok_iff (sp : Space) (a n : Nat) (s : State) (xs : List Byte) :
    memReadBytes sp a n s = .ok xs ↔
      xs.length = n ∧ ∀ k, k < n → ∃ x, xs[k]? = some x ∧ memReadByte sp (a + k) s = .ok x := by
  induction n generalizing a xs with
  | zero => cases xs <;> simp [memReadBytes]
  | succ n ih =>
    constructor
    · intro h
      simp only [memReadBytes] at h
      cases h1 : memReadByte sp a s with
      | error f => simp [h1] at h
      | ok x =>
        cases h2 : memReadBytes sp (a + 1) n s with
        | error f => simp [h1, h2] at h
        | ok ys =>
          simp only [h1, h2, Except.ok.injEq] at h
          subst h
          obtain ⟨hl, hb⟩ := (ih (a + 1) ys).1 h2
          refine ⟨by simp [hl], ?_⟩
          intro k hk
          cases k with
          | zero => exact ⟨x, by simp, by simpa using h1⟩
          | succ k =>
            obtain ⟨z, hz, hr⟩ := hb k (by omega)
            exact ⟨z, by simpa using hz, by rw [show a + (k + 1) = a + 1 + k by omega]; exact hr⟩
    · rintro ⟨hl, hb⟩
      cases xs with
      | nil => simp at hl
      | cons x xs =>
        obtain ⟨z, hz, hr⟩ := hb 0 (by omega)
        have h2 : memReadBytes sp (a + 1) n s = .ok xs := by
          refine (ih (a + 1) xs).2 ⟨by simpa using hl, ?_⟩
          intro k hk
          obtain ⟨y, hy, hr'⟩ := hb (k + 1) (by omega)
          exact ⟨y, by simpa using hy, by rw [show a + 1 + k = a + (k + 1) by omega]; exact hr'⟩
        simp only [List.getElem?_cons_zero, Option.some.injEq] at hz
        subst hz
        simp only [Nat.add_zero] at hr
        simp [memReadBytes, hr, h2]

/-- `RXB[0..RX_LEN)` is `r`: its length, and each byte. -/
theorem rxFrame_ok_iff (s : State) (r : List Byte) :
    rxFrame s = .ok r ↔ r.length = s.rxLen ∧ ∀ k, k < s.rxLen → Sparse.read s.rxb k = r[k]? := by
  unfold rxFrame
  rw [memReadBytes_ok_iff]
  constructor
  · rintro ⟨hl, hb⟩
    refine ⟨hl, fun k hk => ?_⟩
    obtain ⟨x, hx, hr⟩ := hb k hk
    rw [memReadByte_ok_iff] at hr
    simpa [hx, State.space] using hr.2
  · rintro ⟨hl, hb⟩
    refine ⟨hl, fun k hk => ⟨r[k]'(by omega), by simp, ?_⟩⟩
    rw [memReadByte_ok_iff]
    refine ⟨by simpa [State.validLen] using hk, ?_⟩
    have := hb k hk
    simpa [State.space, List.getElem?_eq_getElem (show k < r.length by omega)] using this

/-- `TXB[0..TX_LEN)` is `f`: its length, and each byte. -/
theorem txFrame_ok_iff (s : State) (f : List Byte) :
    txFrame s = .ok f ↔ f.length = s.txLen ∧ ∀ k, k < s.txLen → Sparse.read s.txb k = f[k]? := by
  unfold txFrame
  rw [memReadBytes_ok_iff]
  constructor
  · rintro ⟨hl, hb⟩
    refine ⟨hl, fun k hk => ?_⟩
    obtain ⟨x, hx, hr⟩ := hb k hk
    rw [memReadByte_ok_iff] at hr
    simpa [hx, State.space] using hr.2
  · rintro ⟨hl, hb⟩
    refine ⟨hl, fun k hk => ⟨f[k]'(by omega), by simp, ?_⟩⟩
    rw [memReadByte_ok_iff]
    refine ⟨by simpa [State.validLen] using hk, ?_⟩
    have := hb k hk
    simpa [State.space, List.getElem?_eq_getElem (show k < f.length by omega)] using this

/-- A read depends on the space's contents and valid length only. -/
theorem memReadByte_congr {sp : Space} {s t : State} (hm : t.space sp = s.space sp)
    (hl : t.validLen sp = s.validLen sp) (a : Nat) : memReadByte sp a t = memReadByte sp a s := by
  simp [memReadByte, hm, hl]

theorem memReadBytes_congr {sp : Space} {s t : State} (hm : t.space sp = s.space sp)
    (hl : t.validLen sp = s.validLen sp) (a n : Nat) : memReadBytes sp a n t = memReadBytes sp a n s := by
  induction n generalizing a with
  | zero => rfl
  | succ n ih => simp [memReadBytes, memReadByte_congr hm hl, ih]

/-- The reset state's buffers and value file are in canonical form. -/
theorem reset_wf : Memory.wf State.reset.txb = true ∧ Memory.wf State.reset.rxb = true ∧
    ValueFile.wf State.reset.v = true := ⟨rfl, rfl, rfl⟩

end Sys2Proof.Machine
end

