-- ==== Sys2Proof/Laws/State.lean ====
section
/-! SUPPORT. One lemma per field per named update of State, true by rfl: what each update changes and
what it leaves. Later proofs use these and never unfold a record update. -/

namespace Sys2Proof.Machine

/-! ## opCrcInit -/

@[simp] theorem opCrcInit_stn (s : State) : (opCrcInit s).stn = s.stn := rfl
@[simp] theorem opCrcInit_fn (s : State) : (opCrcInit s).fn = s.fn := rfl
@[simp] theorem opCrcInit_a (s : State) : (opCrcInit s).a = s.a := rfl
@[simp] theorem opCrcInit_b (s : State) : (opCrcInit s).b = s.b := rfl
@[simp] theorem opCrcInit_raw (s : State) : (opCrcInit s).raw = s.raw := rfl
@[simp] theorem opCrcInit_nv (s : State) : (opCrcInit s).nv = s.nv := rfl
@[simp] theorem opCrcInit_v (s : State) : (opCrcInit s).v = s.v := rfl
@[simp] theorem opCrcInit_crc (s : State) : (opCrcInit s).crc = crcInitial := rfl
@[simp] theorem opCrcInit_reqFn (s : State) : (opCrcInit s).reqFn = s.reqFn := rfl
@[simp] theorem opCrcInit_reqRaw (s : State) : (opCrcInit s).reqRaw = s.reqRaw := rfl
@[simp] theorem opCrcInit_txb (s : State) : (opCrcInit s).txb = s.txb := rfl
@[simp] theorem opCrcInit_txLen (s : State) : (opCrcInit s).txLen = s.txLen := rfl
@[simp] theorem opCrcInit_rxb (s : State) : (opCrcInit s).rxb = s.rxb := rfl
@[simp] theorem opCrcInit_rxLen (s : State) : (opCrcInit s).rxLen = s.rxLen := rfl
@[simp] theorem opCrcInit_phase (s : State) : (opCrcInit s).phase = s.phase := rfl
@[simp] theorem opCrcInit_resValid (s : State) : (opCrcInit s).resValid = s.resValid := rfl
@[simp] theorem opCrcInit_resKind (s : State) : (opCrcInit s).resKind = s.resKind := rfl
@[simp] theorem opCrcInit_resCode (s : State) : (opCrcInit s).resCode = s.resCode := rfl
@[simp] theorem opCrcInit_resMsg (s : State) : (opCrcInit s).resMsg = s.resMsg := rfl
@[simp] theorem opCrcInit_resRefuse (s : State) : (opCrcInit s).resRefuse = s.resRefuse := rfl
@[simp] theorem opCrcInit_reqCap (s : State) : (opCrcInit s).reqCap = s.reqCap := rfl
@[simp] theorem opCrcInit_rspCap (s : State) : (opCrcInit s).rspCap = s.rspCap := rfl
@[simp] theorem opCrcInit_xerr (s : State) : (opCrcInit s).xerr = s.xerr := rfl
@[simp] theorem opCrcInit_xopen (s : State) : (opCrcInit s).xopen = s.xopen := rfl
@[simp] theorem opCrcInit_pending (s : State) : (opCrcInit s).pending = s.pending := rfl
@[simp] theorem opCrcInit_cfg (s : State) : (opCrcInit s).cfg = s.cfg := rfl
@[simp] theorem opCrcInit_free (s : State) : (opCrcInit s).free = s.free := rfl
@[simp] theorem opCrcInit_hostIn (s : State) : (opCrcInit s).hostIn = s.hostIn := rfl
@[simp] theorem opCrcInit_lineAns (s : State) : (opCrcInit s).lineAns = s.lineAns := rfl
@[simp] theorem opCrcInit_readAns (s : State) : (opCrcInit s).readAns = s.readAns := rfl
@[simp] theorem opCrcInit_calls (s : State) : (opCrcInit s).calls = s.calls := rfl
@[simp] theorem opCrcInit_xltId (s : State) : (opCrcInit s).xltId = s.xltId := rfl
@[simp] theorem opCrcInit_refusal (s : State) : (opCrcInit s).refusal = s.refusal := rfl

/-! ## opCrcUpdate -/

@[simp] theorem opCrcUpdate_stn (x : Byte) (s : State) : (opCrcUpdate x s).stn = s.stn := rfl
@[simp] theorem opCrcUpdate_fn (x : Byte) (s : State) : (opCrcUpdate x s).fn = s.fn := rfl
@[simp] theorem opCrcUpdate_a (x : Byte) (s : State) : (opCrcUpdate x s).a = s.a := rfl
@[simp] theorem opCrcUpdate_b (x : Byte) (s : State) : (opCrcUpdate x s).b = s.b := rfl
@[simp] theorem opCrcUpdate_raw (x : Byte) (s : State) : (opCrcUpdate x s).raw = s.raw := rfl
@[simp] theorem opCrcUpdate_nv (x : Byte) (s : State) : (opCrcUpdate x s).nv = s.nv := rfl
@[simp] theorem opCrcUpdate_v (x : Byte) (s : State) : (opCrcUpdate x s).v = s.v := rfl
@[simp] theorem opCrcUpdate_crc (x : Byte) (s : State) : (opCrcUpdate x s).crc = crcStep s.crc x := rfl
@[simp] theorem opCrcUpdate_reqFn (x : Byte) (s : State) : (opCrcUpdate x s).reqFn = s.reqFn := rfl
@[simp] theorem opCrcUpdate_reqRaw (x : Byte) (s : State) : (opCrcUpdate x s).reqRaw = s.reqRaw := rfl
@[simp] theorem opCrcUpdate_txb (x : Byte) (s : State) : (opCrcUpdate x s).txb = s.txb := rfl
@[simp] theorem opCrcUpdate_txLen (x : Byte) (s : State) : (opCrcUpdate x s).txLen = s.txLen := rfl
@[simp] theorem opCrcUpdate_rxb (x : Byte) (s : State) : (opCrcUpdate x s).rxb = s.rxb := rfl
@[simp] theorem opCrcUpdate_rxLen (x : Byte) (s : State) : (opCrcUpdate x s).rxLen = s.rxLen := rfl
@[simp] theorem opCrcUpdate_phase (x : Byte) (s : State) : (opCrcUpdate x s).phase = s.phase := rfl
@[simp] theorem opCrcUpdate_resValid (x : Byte) (s : State) : (opCrcUpdate x s).resValid = s.resValid := rfl
@[simp] theorem opCrcUpdate_resKind (x : Byte) (s : State) : (opCrcUpdate x s).resKind = s.resKind := rfl
@[simp] theorem opCrcUpdate_resCode (x : Byte) (s : State) : (opCrcUpdate x s).resCode = s.resCode := rfl
@[simp] theorem opCrcUpdate_resMsg (x : Byte) (s : State) : (opCrcUpdate x s).resMsg = s.resMsg := rfl
@[simp] theorem opCrcUpdate_resRefuse (x : Byte) (s : State) : (opCrcUpdate x s).resRefuse = s.resRefuse := rfl
@[simp] theorem opCrcUpdate_reqCap (x : Byte) (s : State) : (opCrcUpdate x s).reqCap = s.reqCap := rfl
@[simp] theorem opCrcUpdate_rspCap (x : Byte) (s : State) : (opCrcUpdate x s).rspCap = s.rspCap := rfl
@[simp] theorem opCrcUpdate_xerr (x : Byte) (s : State) : (opCrcUpdate x s).xerr = s.xerr := rfl
@[simp] theorem opCrcUpdate_xopen (x : Byte) (s : State) : (opCrcUpdate x s).xopen = s.xopen := rfl
@[simp] theorem opCrcUpdate_pending (x : Byte) (s : State) : (opCrcUpdate x s).pending = s.pending := rfl
@[simp] theorem opCrcUpdate_cfg (x : Byte) (s : State) : (opCrcUpdate x s).cfg = s.cfg := rfl
@[simp] theorem opCrcUpdate_free (x : Byte) (s : State) : (opCrcUpdate x s).free = s.free := rfl
@[simp] theorem opCrcUpdate_hostIn (x : Byte) (s : State) : (opCrcUpdate x s).hostIn = s.hostIn := rfl
@[simp] theorem opCrcUpdate_lineAns (x : Byte) (s : State) : (opCrcUpdate x s).lineAns = s.lineAns := rfl
@[simp] theorem opCrcUpdate_readAns (x : Byte) (s : State) : (opCrcUpdate x s).readAns = s.readAns := rfl
@[simp] theorem opCrcUpdate_calls (x : Byte) (s : State) : (opCrcUpdate x s).calls = s.calls := rfl
@[simp] theorem opCrcUpdate_xltId (x : Byte) (s : State) : (opCrcUpdate x s).xltId = s.xltId := rfl
@[simp] theorem opCrcUpdate_refusal (x : Byte) (s : State) : (opCrcUpdate x s).refusal = s.refusal := rfl

/-! ## endWith -/

@[simp] theorem endWith_stn (e : Ending) (s : State) : (endWith e s).stn = s.stn := rfl
@[simp] theorem endWith_fn (e : Ending) (s : State) : (endWith e s).fn = s.fn := rfl
@[simp] theorem endWith_a (e : Ending) (s : State) : (endWith e s).a = s.a := rfl
@[simp] theorem endWith_b (e : Ending) (s : State) : (endWith e s).b = s.b := rfl
@[simp] theorem endWith_raw (e : Ending) (s : State) : (endWith e s).raw = s.raw := rfl
@[simp] theorem endWith_nv (e : Ending) (s : State) : (endWith e s).nv = s.nv := rfl
@[simp] theorem endWith_v (e : Ending) (s : State) : (endWith e s).v = s.v := rfl
@[simp] theorem endWith_crc (e : Ending) (s : State) : (endWith e s).crc = s.crc := rfl
@[simp] theorem endWith_reqFn (e : Ending) (s : State) : (endWith e s).reqFn = s.reqFn := rfl
@[simp] theorem endWith_reqRaw (e : Ending) (s : State) : (endWith e s).reqRaw = s.reqRaw := rfl
@[simp] theorem endWith_txb (e : Ending) (s : State) : (endWith e s).txb = s.txb := rfl
@[simp] theorem endWith_txLen (e : Ending) (s : State) : (endWith e s).txLen = s.txLen := rfl
@[simp] theorem endWith_rxb (e : Ending) (s : State) : (endWith e s).rxb = s.rxb := rfl
@[simp] theorem endWith_rxLen (e : Ending) (s : State) : (endWith e s).rxLen = s.rxLen := rfl
@[simp] theorem endWith_phase (e : Ending) (s : State) : (endWith e s).phase = .done := rfl
@[simp] theorem endWith_resValid (e : Ending) (s : State) : (endWith e s).resValid = s.resValid := rfl
@[simp] theorem endWith_resKind (e : Ending) (s : State) : (endWith e s).resKind = s.resKind := rfl
@[simp] theorem endWith_resCode (e : Ending) (s : State) : (endWith e s).resCode = s.resCode := rfl
@[simp] theorem endWith_resMsg (e : Ending) (s : State) : (endWith e s).resMsg = s.resMsg := rfl
@[simp] theorem endWith_resRefuse (e : Ending) (s : State) : (endWith e s).resRefuse = s.resRefuse := rfl
@[simp] theorem endWith_reqCap (e : Ending) (s : State) : (endWith e s).reqCap = s.reqCap := rfl
@[simp] theorem endWith_rspCap (e : Ending) (s : State) : (endWith e s).rspCap = s.rspCap := rfl
@[simp] theorem endWith_xerr (e : Ending) (s : State) : (endWith e s).xerr = s.xerr := rfl
@[simp] theorem endWith_xopen (e : Ending) (s : State) : (endWith e s).xopen = s.xopen := rfl
@[simp] theorem endWith_pending (e : Ending) (s : State) : (endWith e s).pending = .ending e := rfl
@[simp] theorem endWith_cfg (e : Ending) (s : State) : (endWith e s).cfg = s.cfg := rfl
@[simp] theorem endWith_free (e : Ending) (s : State) : (endWith e s).free = s.free := rfl
@[simp] theorem endWith_hostIn (e : Ending) (s : State) : (endWith e s).hostIn = s.hostIn := rfl
@[simp] theorem endWith_lineAns (e : Ending) (s : State) : (endWith e s).lineAns = s.lineAns := rfl
@[simp] theorem endWith_readAns (e : Ending) (s : State) : (endWith e s).readAns = s.readAns := rfl
@[simp] theorem endWith_calls (e : Ending) (s : State) : (endWith e s).calls = s.calls := rfl
@[simp] theorem endWith_xltId (e : Ending) (s : State) : (endWith e s).xltId = s.xltId := rfl
@[simp] theorem endWith_refusal (e : Ending) (s : State) : (endWith e s).refusal = s.refusal.or e.reason := rfl

/-! ## finish -/

@[simp] theorem finish_stn (e : Ending) (s : State) : (finish e s).stn = s.stn := rfl
@[simp] theorem finish_fn (e : Ending) (s : State) : (finish e s).fn = s.fn := rfl
@[simp] theorem finish_a (e : Ending) (s : State) : (finish e s).a = s.a := rfl
@[simp] theorem finish_b (e : Ending) (s : State) : (finish e s).b = s.b := rfl
@[simp] theorem finish_raw (e : Ending) (s : State) : (finish e s).raw = s.raw := rfl
@[simp] theorem finish_nv (e : Ending) (s : State) : (finish e s).nv = s.nv := rfl
@[simp] theorem finish_v (e : Ending) (s : State) : (finish e s).v = s.v := rfl
@[simp] theorem finish_crc (e : Ending) (s : State) : (finish e s).crc = s.crc := rfl
@[simp] theorem finish_reqFn (e : Ending) (s : State) : (finish e s).reqFn = s.reqFn := rfl
@[simp] theorem finish_reqRaw (e : Ending) (s : State) : (finish e s).reqRaw = s.reqRaw := rfl
@[simp] theorem finish_txb (e : Ending) (s : State) : (finish e s).txb = s.txb := rfl
@[simp] theorem finish_txLen (e : Ending) (s : State) : (finish e s).txLen = s.txLen := rfl
@[simp] theorem finish_rxb (e : Ending) (s : State) : (finish e s).rxb = s.rxb := rfl
@[simp] theorem finish_rxLen (e : Ending) (s : State) : (finish e s).rxLen = s.rxLen := rfl
@[simp] theorem finish_phase (e : Ending) (s : State) : (finish e s).phase = .idle := rfl
@[simp] theorem finish_resValid (e : Ending) (s : State) : (finish e s).resValid = true := rfl
@[simp] theorem finish_resKind (e : Ending) (s : State) : (finish e s).resKind = e.kind := rfl
@[simp] theorem finish_resCode (e : Ending) (s : State) : (finish e s).resCode = (e.code s.cfg).getD (Config.freeCode s.free) := rfl
@[simp] theorem finish_resMsg (e : Ending) (s : State) : (finish e s).resMsg = e.msg.getD (Config.freeMsg s.free) := rfl
@[simp] theorem finish_resRefuse (e : Ending) (s : State) : (finish e s).resRefuse = e.refuse.getD (Config.freeRefuse s.free) := rfl
@[simp] theorem finish_reqCap (e : Ending) (s : State) : (finish e s).reqCap = e.reqCap := rfl
@[simp] theorem finish_rspCap (e : Ending) (s : State) : (finish e s).rspCap = e.rspCap := rfl
@[simp] theorem finish_xerr (e : Ending) (s : State) : (finish e s).xerr = e.cause.getD s.xerr := rfl
@[simp] theorem finish_xopen (e : Ending) (s : State) : (finish e s).xopen = s.xopen := rfl
@[simp] theorem finish_pending (e : Ending) (s : State) : (finish e s).pending = .nothing := rfl
@[simp] theorem finish_cfg (e : Ending) (s : State) : (finish e s).cfg = s.cfg := rfl
@[simp] theorem finish_free (e : Ending) (s : State) : (finish e s).free = s.free + 1 := rfl
@[simp] theorem finish_hostIn (e : Ending) (s : State) : (finish e s).hostIn = s.hostIn := rfl
@[simp] theorem finish_lineAns (e : Ending) (s : State) : (finish e s).lineAns = s.lineAns := rfl
@[simp] theorem finish_readAns (e : Ending) (s : State) : (finish e s).readAns = s.readAns := rfl
@[simp] theorem finish_calls (e : Ending) (s : State) : (finish e s).calls = s.calls := rfl
@[simp] theorem finish_xltId (e : Ending) (s : State) : (finish e s).xltId = s.xltId := rfl
@[simp] theorem finish_refusal (e : Ending) (s : State) : (finish e s).refusal = s.refusal := rfl

/-! ## clearOutcome -/

@[simp] theorem clearOutcome_stn (s : State) : (clearOutcome s).stn = s.stn := rfl
@[simp] theorem clearOutcome_fn (s : State) : (clearOutcome s).fn = s.fn := rfl
@[simp] theorem clearOutcome_a (s : State) : (clearOutcome s).a = s.a := rfl
@[simp] theorem clearOutcome_b (s : State) : (clearOutcome s).b = s.b := rfl
@[simp] theorem clearOutcome_raw (s : State) : (clearOutcome s).raw = s.raw := rfl
@[simp] theorem clearOutcome_nv (s : State) : (clearOutcome s).nv = s.nv := rfl
@[simp] theorem clearOutcome_v (s : State) : (clearOutcome s).v = s.v := rfl
@[simp] theorem clearOutcome_crc (s : State) : (clearOutcome s).crc = s.crc := rfl
@[simp] theorem clearOutcome_reqFn (s : State) : (clearOutcome s).reqFn = s.reqFn := rfl
@[simp] theorem clearOutcome_reqRaw (s : State) : (clearOutcome s).reqRaw = s.reqRaw := rfl
@[simp] theorem clearOutcome_txb (s : State) : (clearOutcome s).txb = s.txb := rfl
@[simp] theorem clearOutcome_txLen (s : State) : (clearOutcome s).txLen = s.txLen := rfl
@[simp] theorem clearOutcome_rxb (s : State) : (clearOutcome s).rxb = s.rxb := rfl
@[simp] theorem clearOutcome_rxLen (s : State) : (clearOutcome s).rxLen = s.rxLen := rfl
@[simp] theorem clearOutcome_phase (s : State) : (clearOutcome s).phase = s.phase := rfl
@[simp] theorem clearOutcome_resValid (s : State) : (clearOutcome s).resValid = false := rfl
@[simp] theorem clearOutcome_resKind (s : State) : (clearOutcome s).resKind = s.resKind := rfl
@[simp] theorem clearOutcome_resCode (s : State) : (clearOutcome s).resCode = s.resCode := rfl
@[simp] theorem clearOutcome_resMsg (s : State) : (clearOutcome s).resMsg = s.resMsg := rfl
@[simp] theorem clearOutcome_resRefuse (s : State) : (clearOutcome s).resRefuse = s.resRefuse := rfl
@[simp] theorem clearOutcome_reqCap (s : State) : (clearOutcome s).reqCap = false := rfl
@[simp] theorem clearOutcome_rspCap (s : State) : (clearOutcome s).rspCap = false := rfl
@[simp] theorem clearOutcome_xerr (s : State) : (clearOutcome s).xerr = s.xerr := rfl
@[simp] theorem clearOutcome_xopen (s : State) : (clearOutcome s).xopen = s.xopen := rfl
@[simp] theorem clearOutcome_pending (s : State) : (clearOutcome s).pending = s.pending := rfl
@[simp] theorem clearOutcome_cfg (s : State) : (clearOutcome s).cfg = s.cfg := rfl
@[simp] theorem clearOutcome_free (s : State) : (clearOutcome s).free = s.free := rfl
@[simp] theorem clearOutcome_hostIn (s : State) : (clearOutcome s).hostIn = s.hostIn := rfl
@[simp] theorem clearOutcome_lineAns (s : State) : (clearOutcome s).lineAns = s.lineAns := rfl
@[simp] theorem clearOutcome_readAns (s : State) : (clearOutcome s).readAns = s.readAns := rfl
@[simp] theorem clearOutcome_calls (s : State) : (clearOutcome s).calls = s.calls := rfl
@[simp] theorem clearOutcome_xltId (s : State) : (clearOutcome s).xltId = s.xltId := rfl
@[simp] theorem clearOutcome_refusal (s : State) : (clearOutcome s).refusal = s.refusal := rfl

/-! ## startExchange -/

@[simp] theorem startExchange_stn (s : State) : (startExchange s).stn = s.stn := rfl
@[simp] theorem startExchange_fn (s : State) : (startExchange s).fn = s.fn := rfl
@[simp] theorem startExchange_a (s : State) : (startExchange s).a = s.a := rfl
@[simp] theorem startExchange_b (s : State) : (startExchange s).b = s.b := rfl
@[simp] theorem startExchange_raw (s : State) : (startExchange s).raw = s.raw := rfl
@[simp] theorem startExchange_nv (s : State) : (startExchange s).nv = s.nv := rfl
@[simp] theorem startExchange_v (s : State) : (startExchange s).v = s.v := rfl
@[simp] theorem startExchange_crc (s : State) : (startExchange s).crc = s.crc := rfl
@[simp] theorem startExchange_reqFn (s : State) : (startExchange s).reqFn = s.fn.getD (Config.freeFn s.free) := rfl
@[simp] theorem startExchange_reqRaw (s : State) : (startExchange s).reqRaw = s.raw.getD (Config.freeRaw s.free) := rfl
@[simp] theorem startExchange_txb (s : State) : (startExchange s).txb = s.txb := rfl
@[simp] theorem startExchange_txLen (s : State) : (startExchange s).txLen = 0 := rfl
@[simp] theorem startExchange_rxb (s : State) : (startExchange s).rxb = s.rxb := rfl
@[simp] theorem startExchange_rxLen (s : State) : (startExchange s).rxLen = 0 := rfl
@[simp] theorem startExchange_phase (s : State) : (startExchange s).phase = .encode := rfl
@[simp] theorem startExchange_resValid (s : State) : (startExchange s).resValid = false := rfl
@[simp] theorem startExchange_resKind (s : State) : (startExchange s).resKind = s.resKind := rfl
@[simp] theorem startExchange_resCode (s : State) : (startExchange s).resCode = s.resCode := rfl
@[simp] theorem startExchange_resMsg (s : State) : (startExchange s).resMsg = s.resMsg := rfl
@[simp] theorem startExchange_resRefuse (s : State) : (startExchange s).resRefuse = s.resRefuse := rfl
@[simp] theorem startExchange_reqCap (s : State) : (startExchange s).reqCap = false := rfl
@[simp] theorem startExchange_rspCap (s : State) : (startExchange s).rspCap = false := rfl
@[simp] theorem startExchange_xerr (s : State) : (startExchange s).xerr = s.xerr := rfl
@[simp] theorem startExchange_xopen (s : State) : (startExchange s).xopen = s.xopen := rfl
@[simp] theorem startExchange_pending (s : State) : (startExchange s).pending = s.pending := rfl
@[simp] theorem startExchange_cfg (s : State) : (startExchange s).cfg = s.cfg := rfl
@[simp] theorem startExchange_free (s : State) : (startExchange s).free = s.free + 1 := rfl
@[simp] theorem startExchange_hostIn (s : State) : (startExchange s).hostIn = s.hostIn := rfl
@[simp] theorem startExchange_lineAns (s : State) : (startExchange s).lineAns = s.lineAns := rfl
@[simp] theorem startExchange_readAns (s : State) : (startExchange s).readAns = s.readAns := rfl
@[simp] theorem startExchange_calls (s : State) : (startExchange s).calls = s.calls := rfl
@[simp] theorem startExchange_xltId (s : State) : (startExchange s).xltId = s.xltId := rfl
@[simp] theorem startExchange_refusal (s : State) : (startExchange s).refusal = s.refusal := rfl

/-! ## hardReset -/

@[simp] theorem hardReset_stn (s : State) : (hardReset s).stn = State.reset.stn := rfl
@[simp] theorem hardReset_fn (s : State) : (hardReset s).fn = State.reset.fn := rfl
@[simp] theorem hardReset_a (s : State) : (hardReset s).a = State.reset.a := rfl
@[simp] theorem hardReset_b (s : State) : (hardReset s).b = State.reset.b := rfl
@[simp] theorem hardReset_raw (s : State) : (hardReset s).raw = State.reset.raw := rfl
@[simp] theorem hardReset_nv (s : State) : (hardReset s).nv = State.reset.nv := rfl
@[simp] theorem hardReset_v (s : State) : (hardReset s).v = State.reset.v := rfl
@[simp] theorem hardReset_crc (s : State) : (hardReset s).crc = State.reset.crc := rfl
@[simp] theorem hardReset_reqFn (s : State) : (hardReset s).reqFn = State.reset.reqFn := rfl
@[simp] theorem hardReset_reqRaw (s : State) : (hardReset s).reqRaw = State.reset.reqRaw := rfl
@[simp] theorem hardReset_txb (s : State) : (hardReset s).txb = State.reset.txb := rfl
@[simp] theorem hardReset_txLen (s : State) : (hardReset s).txLen = State.reset.txLen := rfl
@[simp] theorem hardReset_rxb (s : State) : (hardReset s).rxb = State.reset.rxb := rfl
@[simp] theorem hardReset_rxLen (s : State) : (hardReset s).rxLen = State.reset.rxLen := rfl
@[simp] theorem hardReset_phase (s : State) : (hardReset s).phase = State.reset.phase := rfl
@[simp] theorem hardReset_resValid (s : State) : (hardReset s).resValid = State.reset.resValid := rfl
@[simp] theorem hardReset_resKind (s : State) : (hardReset s).resKind = State.reset.resKind := rfl
@[simp] theorem hardReset_resCode (s : State) : (hardReset s).resCode = State.reset.resCode := rfl
@[simp] theorem hardReset_resMsg (s : State) : (hardReset s).resMsg = State.reset.resMsg := rfl
@[simp] theorem hardReset_resRefuse (s : State) : (hardReset s).resRefuse = State.reset.resRefuse := rfl
@[simp] theorem hardReset_reqCap (s : State) : (hardReset s).reqCap = State.reset.reqCap := rfl
@[simp] theorem hardReset_rspCap (s : State) : (hardReset s).rspCap = State.reset.rspCap := rfl
@[simp] theorem hardReset_xerr (s : State) : (hardReset s).xerr = State.reset.xerr := rfl
@[simp] theorem hardReset_xopen (s : State) : (hardReset s).xopen = State.reset.xopen := rfl
@[simp] theorem hardReset_pending (s : State) : (hardReset s).pending = State.reset.pending := rfl
@[simp] theorem hardReset_cfg (s : State) : (hardReset s).cfg = s.cfg := rfl
@[simp] theorem hardReset_free (s : State) : (hardReset s).free = s.free := rfl
@[simp] theorem hardReset_hostIn (s : State) : (hardReset s).hostIn = s.hostIn := rfl
@[simp] theorem hardReset_lineAns (s : State) : (hardReset s).lineAns = s.lineAns := rfl
@[simp] theorem hardReset_readAns (s : State) : (hardReset s).readAns = s.readAns := rfl
@[simp] theorem hardReset_calls (s : State) : (hardReset s).calls = s.calls := rfl
@[simp] theorem hardReset_xltId (s : State) : (hardReset s).xltId = s.xltId := rfl
@[simp] theorem hardReset_refusal (s : State) : (hardReset s).refusal = s.refusal := rfl

end Sys2Proof.Machine
end

