-- ==== Sys2Proof/Laws/Ops.lean ====
section
/-! SUPPORT. For each shared operation, once, everything it can answer: the CRC unit's run, what a
read makes of its continuation, the emission of a frame, the checked decoding of a response, the
ports, the transport calls, the start of an exchange and the arrival of host events. -/

namespace Sys2Proof.Machine

/-! ## CRC unit -/

theorem crc_fold_state (bytes : List Byte) (s : State) :
    bytes.foldl (fun t x => opCrcUpdate x t) s = { s with crc := bytes.foldl crcStep s.crc } := by
  induction bytes generalizing s with
  | nil => rfl
  | cons x xs ih => rw [List.foldl_cons, ih]; rfl

/-- The CRC unit's run over a message changes CRC to `crc16` of it and nothing else (R113). -/
theorem crcOver_eq (bytes : List Byte) (s : State) :
    crcOver bytes s = { s with crc := crc16 bytes } := by
  rw [crcOver, crc_fold_state]; rfl

/-! ## Reading -/

@[simp] theorem reading_ok {α : Type} (v : α) (k : α → StepResult) : reading (.ok v) k = k v := rfl

@[simp] theorem reading_error {α : Type} (f : Fault) (k : α → StepResult) :
    reading (.error f) k = .fault f := rfl

/-- A read that goes on to a next state read something. -/
theorem reading_next {α : Type} {x : Except Fault α} {k : α → StepResult} {t : State}
    (h : reading x k = .next t) : ∃ v, x = .ok v ∧ k v = .next t := by
  cases x with
  | error f => cases h
  | ok v => exact ⟨v, rfl, h⟩

/-- A read that faults either read nothing or goes on to the fault. -/
theorem reading_fault {α : Type} {x : Except Fault α} {k : α → StepResult} {f : Fault}
    (h : reading x k = .fault f) : x = .error f ∨ ∃ v, x = .ok v ∧ k v = .fault f := by
  cases x with
  | error g => cases h; exact .inl rfl
  | ok v => exact .inr ⟨v, rfl, h⟩

/-- A read refuses only if its continuation does. -/
theorem reading_refused {α : Type} {x : Except Fault α} {k : α → StepResult} {r : Refusal}
    (h : reading x k = .refused r) : ∃ v, x = .ok v ∧ k v = .refused r := by
  cases x with
  | error f => cases h
  | ok v => exact ⟨v, rfl, h⟩

/-! ## Requests -/

/-- Storing a frame, field by field (R131): CRC holds `crc16` of the body, TXB the frame's bytes. -/
theorem storeFrame_eq (body : List Byte) (s : State) :
    storeFrame body s =
      { s with
        crc := crc16 body
        txb := writeBytes (writeBytes s.txb 0 body) body.length (le16 (crc16 body))
        txLen := body.length + 2
        phase := .send } := by
  simp [storeFrame, crcOver_eq, le16]

/-- What TXB reads as after a frame is stored: the frame, then what stood there before. -/
theorem read_storeFrame (body : List Byte) (s : State) (k : Nat) :
    Sparse.read (storeFrame body s).txb k =
      if k < body.length + 2 then (withCrc body)[k]? else Sparse.read s.txb k := by
  rw [storeFrame_eq]
  simp only [read_writeBytes, withCrc, le16, List.length_cons, List.length_nil]
  by_cases h1 : k < body.length
  · rw [if_neg (by omega), if_pos (by omega), if_pos (by omega), List.getElem?_append_left h1]
    simp
  · by_cases h2 : k < body.length + 2
    · rw [if_pos (by omega), if_pos h2, List.getElem?_append_right (by omega)]
    · rw [if_neg (by omega), if_neg (by omega), if_neg h2]

/-- The frame in TXB after it is stored (R131). -/
theorem txFrame_storeFrame (body : List Byte) (s : State) :
    txFrame (storeFrame body s) = .ok (withCrc body) := by
  rw [txFrame_ok_iff]
  have hl : (storeFrame body s).txLen = body.length + 2 := by rw [storeFrame_eq]
  refine ⟨by simp [withCrc, le16, hl], fun k hk => ?_⟩
  rw [hl] at hk
  rw [read_storeFrame, if_pos hk]

/-- Emission goes on to one of two states (R147): refused for the buffer, or the frame stored. -/
theorem emit_cases (n : Nat) (body : List Byte) (s : State) :
    ((s.cfg.txBufMax < body.length + 2 ∨ s.cfg.nvMax < n) ∧
      emit n body s = .next (endWith (.refused .bufferOverflow) s)) ∨
    (body.length + 2 ≤ s.cfg.txBufMax ∧ n ≤ s.cfg.nvMax ∧
      emit n body s = .next (storeFrame body s)) := by
  unfold emit
  split
  · next h => exact .inl ⟨h, rfl⟩
  · next h => exact .inr ⟨by omega, by omega, rfl⟩

/-! ## Responses -/

/-- If a checked decoding goes on, it read the response's body and checksum and then ended in
CheckFails, gave the raw frame, or ran the row's decoder, in the state whose CRC is the body's
(R162, R163). -/
theorem checkedDecode_cases {d : State → StepResult} {s t : State}
    (h : checkedDecode d s = .next t) :
    ∃ body received, memReadBytes .rxb 0 (s.rxLen - 2) s = .ok body ∧
      memReadLe16 .rxb (s.rxLen - 2) s = .ok received ∧
      ((crc16 body ≠ received ∧ t = endWith (.fail .checkFails) { s with crc := crc16 body }) ∨
        (crc16 body = received ∧ s.reqRaw = true ∧
          decodeRaw { s with crc := crc16 body } = .next t) ∨
        (crc16 body = received ∧ s.reqRaw = false ∧ d { s with crc := crc16 body } = .next t)) := by
  obtain ⟨body, hb, h⟩ := reading_next h
  obtain ⟨received, hr, h⟩ := reading_next h
  refine ⟨body, received, hb, hr, ?_⟩
  simp only [crcOver_eq] at h
  by_cases hc : crc16 body = received
  · rw [if_neg (not_not.2 hc)] at h
    cases hw : s.reqRaw
    · rw [hw] at h; exact .inr (.inr ⟨hc, rfl, h⟩)
    · rw [hw] at h; exact .inr (.inl ⟨hc, rfl, h⟩)
  · rw [if_pos hc] at h
    cases h
    exact .inl ⟨hc, rfl⟩

/-- Giving the raw frame ends with the whole response (R163). -/
theorem decodeRaw_cases {s t : State} (h : decodeRaw s = .next t) :
    ∃ r, rxFrame s = .ok r ∧ t = endWith (.ok (.raw r)) s := by
  obtain ⟨r, hr, h⟩ := reading_next h
  cases h
  exact ⟨r, hr, rfl⟩

/-! ## Ports -/

/-- The CRC port's operation lands in IDLE and is ignored otherwise (R120). -/
theorem onCrcPort_eq (op : State → State) (s : State) :
    onCrcPort op s = .next (if s.phase = .idle then op s else s) := by
  unfold onCrcPort busy
  by_cases h : s.phase = .idle <;> simp [h]

/-- OPEN and CLOSE refuse while busy and else wait in DONE (R222, R223, R286). -/
theorem beginHandle_eq (p : Pending) (s : State) :
    beginHandle p s =
      if s.phase = .idle then .next { clearOutcome s with phase := .done, pending := p }
      else .refused .busyStart := by
  unfold beginHandle busy
  by_cases h : s.phase = .idle <;> simp [h]

/-! ## The sequencer -/

/-- The answer of `open` or `close` goes on to one of three states (R222, R223). -/
theorem handleStep_cases {call : TransportCall} {up : Bool} {s t : State}
    (h : handleStep call up s = .next t) :
    (s.lineAns = [] ∧ t = s) ∨
    (∃ rest, s.lineAns = .ok :: rest ∧
      t = finish .handleOk { s with lineAns := rest, calls := s.calls ++ [call], xopen := up }) ∨
    (∃ e rest, s.lineAns = .err e :: rest ∧
      t = finish (.fail (.handleFailure e)) { s with lineAns := rest, calls := s.calls ++ [call] }) := by
  unfold handleStep at h
  match hl : s.lineAns with
  | [] => rw [hl] at h; cases h; exact .inl ⟨rfl, rfl⟩
  | .ok :: rest => rw [hl] at h; cases h; exact .inr (.inl ⟨rest, rfl, rfl⟩)
  | .err e :: rest => rw [hl] at h; cases h; exact .inr (.inr ⟨e, rest, rfl, rfl⟩)

/-- SEND goes on to one of three states (R213). -/
theorem sendStep_cases {s t : State} (h : sendStep s = .next t) :
    (s.lineAns = [] ∧ t = s) ∨
    ∃ f rest, txFrame s = .ok f ∧
      ((s.lineAns = .ok :: rest ∧
        t = { s with lineAns := rest, calls := s.calls ++ [.send f], phase := .receive }) ∨
       (∃ e, s.lineAns = .err e :: rest ∧
        t = endWith (.fail (.transportFailure e))
          { s with lineAns := rest, calls := s.calls ++ [.send f] })) := by
  unfold sendStep at h
  match hl : s.lineAns with
  | [] => rw [hl] at h; cases h; exact .inl ⟨rfl, rfl⟩
  | .ok :: rest =>
    rw [hl] at h
    obtain ⟨f, hf, h⟩ := reading_next h
    cases h
    exact .inr ⟨f, rest, hf, .inl ⟨rfl, rfl⟩⟩
  | .err e :: rest =>
    rw [hl] at h
    obtain ⟨f, hf, h⟩ := reading_next h
    cases h
    exact .inr ⟨f, rest, hf, .inr ⟨e, rfl, rfl⟩⟩

/-- RECEIVE always goes on, to one of four states (R215, R219). -/
theorem receiveStep_cases (s : State) :
    (s.readAns = [] ∧ receiveStep s = .next s) ∨
    (∃ e rest, s.readAns = .err e :: rest ∧
      receiveStep s = .next (endWith (.fail (.transportFailure e))
        { s with readAns := rest, calls := s.calls ++ [.read] })) ∨
    (∃ r rest, s.readAns = .bytes r :: rest ∧ s.cfg.rxBufMax < r.length ∧
      receiveStep s = .next (endWith (.refused .bufferOverflow)
        { s with readAns := rest, calls := s.calls ++ [.read] })) ∨
    (∃ r rest, s.readAns = .bytes r :: rest ∧ r.length ≤ s.cfg.rxBufMax ∧
      receiveStep s = .next { s with
        readAns := rest, calls := s.calls ++ [.read], rxb := writeBytes s.rxb 0 r
        rxLen := r.length, phase := .validate }) := by
  unfold receiveStep
  match hr : s.readAns with
  | [] => exact .inl ⟨rfl, rfl⟩
  | .err e :: rest => exact .inr (.inl ⟨e, rest, rfl, rfl⟩)
  | .bytes r :: rest =>
    by_cases h : r.length > s.cfg.rxBufMax
    · exact .inr (.inr (.inl ⟨r, rest, rfl, h, by simp [h]⟩))
    · exact .inr (.inr (.inr ⟨r, rest, rfl, by omega, by simp [h]⟩))

/-- A host event lands exactly as its input says (log entry 6). -/
theorem arriving_some_iff (s : State) (e : HostEvent) (rest : List HostInput) :
    arriving s = some (e, rest) ↔
      s.hostIn = .now e :: rest ∨ (s.hostIn = .whenIdle e :: rest ∧ s.phase = .idle) := by
  unfold arriving busy
  match h : s.hostIn with
  | [] => simp
  | .now e' :: rest' => simp
  | .whenIdle e' :: rest' => by_cases hp : s.phase = .idle <;> simp [hp]

/-- No host event lands while the block is busy and none is sent at once. -/
theorem arriving_none_of_busy (s : State) (hb : s.phase ≠ .idle)
    (hq : ∀ e rest, s.hostIn ≠ .now e :: rest) : arriving s = none := by
  unfold arriving busy
  match h : s.hostIn with
  | [] => rfl
  | .now e :: rest => exact absurd h (hq e rest)
  | .whenIdle e :: rest => simp [hb]

/-- A register write ends in the same registers but the one named, or in the fault of a missing
element (R21, R50). -/
theorem putReg_cases {w : RegWrite} {s t : State} (h : putReg w s = .next t) :
    (∃ x, w = .stn x ∧ t = { s with stn := some x }) ∨
    (∃ x, w = .fn x ∧ t = { s with fn := some x }) ∨
    (∃ x, w = .a x ∧ t = { s with a := some x }) ∨
    (∃ x, w = .b x ∧ t = { s with b := some x }) ∨
    (∃ x, w = .raw x ∧ t = { s with raw := some x }) ∨
    (∃ n, w = .nv n ∧ t = { s with nv := some n }) ∨
    (∃ i x, w = .value i x ∧ i < s.cfg.nvMax ∧ t = { s with v := Sparse.write s.v i x }) := by
  cases w with
  | stn x => cases h; exact .inl ⟨x, rfl, rfl⟩
  | fn x => cases h; exact .inr (.inl ⟨x, rfl, rfl⟩)
  | a x => cases h; exact .inr (.inr (.inl ⟨x, rfl, rfl⟩))
  | b x => cases h; exact .inr (.inr (.inr (.inl ⟨x, rfl, rfl⟩)))
  | raw x => cases h; exact .inr (.inr (.inr (.inr (.inl ⟨x, rfl, rfl⟩))))
  | nv n => cases h; exact .inr (.inr (.inr (.inr (.inr (.inl ⟨n, rfl, rfl⟩)))))
  | value i x =>
    simp only [putReg] at h
    split at h
    · next hi => cases h; exact .inr (.inr (.inr (.inr (.inr (.inr ⟨i, x, rfl, hi, rfl⟩)))))
    · cases h

/-- The command the registers hold was read from them: FN catalogued, STN and RAW written (R130 checks
1 and 2). -/
theorem commandOperands_ok {s : State} {w : PortWord} (h : commandOperands s = .ok w) :
    ∃ fn stn raw a b vals, s.fn = some fn ∧ catalogued fn = true ∧ s.stn = some stn ∧
      s.raw = some raw ∧ operand (readsA fn) s.a = .ok a ∧ operand (readsB fn) s.b = .ok b ∧
      valueOperands (readsValues fn) s = .ok vals ∧ w = .command fn stn a b vals := by
  unfold commandOperands at h
  split at h
  · cases h
  · next fn hfn =>
    split at h
    · next hcat =>
      split at h
      · next stn raw a b vals h1 h2 h3 h4 h5 =>
        cases h
        exact ⟨fn, stn, raw, a, b, vals, hfn, hcat, h1, h2, h3, h4, h5, rfl⟩
      · cases h
    · cases h

/-- The registers refuse for one of two reasons only (R130 checks 1 and 2). -/
theorem commandOperands_error {s : State} {r : Reason} (h : commandOperands s = .error r) :
    r = .unknownFunction ∨ r = .unwrittenOperand := by
  unfold commandOperands at h
  split at h
  · cases h; exact .inr rfl
  · split at h
    · split at h
      · cases h
      · cases h; exact .inr rfl
    · cases h; exact .inl rfl

end Sys2Proof.Machine
end

