-- ==== Sys2Proof/Laws/Exchange.lean ====
section
/-! SUPPORT. What one step can do, said once: which host event lands, what each phase's own step is,
what a row of the table can answer, and the inversion of `step` over all of it. -/

namespace Sys2Proof.Machine

/-! ## Views and renamed errors -/

theorem readable_eq {s t : State} (hv : t.resValid = s.resValid) (hp : t.phase = s.phase) :
    readable t = readable s := by
  simp [readable, busy, hv, hp]

/-- A view shows the same where its register does. -/
theorem viewOf_eq {α : Type} {f : State → α} {s t : State} (hr : readable t = readable s)
    (hf : f t = f s) : viewOf f t = viewOf f s := by
  simp [viewOf, hr, hf]

@[simp] theorem viewOf_readable {α : Type} (f : State → α) {s : State} (h : readable s = true) :
    viewOf f s = some (f s) := if_pos h

/-- An operation just finished is readable. -/
@[simp] theorem finish_readable (e : Ending) (s : State) : readable (finish e s) = true := rfl

/-- The registers and buffers the block reads back hold no error value. -/
@[simp] theorem mapError_rxFrame (f : TransportError → TransportError) (s : State) :
    rxFrame (s.mapError f) = rxFrame s := by
  rw [rxFrame, rxFrame]
  exact memReadBytes_congr (s := s) (t := s.mapError f) rfl rfl 0 _

@[simp] theorem mapError_txFrame (f : TransportError → TransportError) (s : State) :
    txFrame (s.mapError f) = txFrame s := by
  rw [txFrame, txFrame]
  exact memReadBytes_congr (s := s) (t := s.mapError f) rfl rfl 0 _

@[simp] theorem mapNext_next (g : State → State) (s : State) : mapNext g (.next s) = .next (g s) := rfl

@[simp] theorem mapNext_fault (g : State → State) (f : Fault) : mapNext g (.fault f) = .fault f := rfl

@[simp] theorem mapNext_refused (g : State → State) (r : Refusal) :
    mapNext g (.refused r) = .refused r := rfl

/-! ## Which event lands -/

theorem arriving_iff_lands (s : State) (e : HostEvent) (rest : List HostInput) :
    arriving s = some (e, rest) ↔ lands e rest s := arriving_some_iff s e rest

/-- While the block is busy nothing lands on a quiet block. -/
theorem arriving_none_of_quiet {s : State} (hp : s.phase ≠ .idle) (hq : quiet s = true) :
    arriving s = none :=
  arriving_none_of_busy s hp fun e rest h => by rw [quiet, h] at hq; cases hq

/-- What an action answers. -/
def Action.result : Action → StepResult
  | .run i t => exec i t
  | .answer o => o

theorem step_eq (s : State) : step s = (nextAction s).result := by
  unfold step Action.result
  cases nextAction s <;> rfl

theorem step_of_lands {s : State} {e : HostEvent} {rest : List HostInput} (h : lands e rest s) :
    step s = (hostAction e { s with hostIn := rest }).result := by
  rw [step_eq, nextAction, (arriving_iff_lands s e rest).2 h]

theorem step_of_none {s : State} (h : arriving s = none) : step s = (seqAction s).result := by
  rw [step_eq, nextAction, h]

/-- A quiet busy block takes the step of its phase. -/
theorem step_of_quiet {s : State} (hp : s.phase ≠ .idle) (hq : quiet s = true) :
    step s = (seqAction s).result := step_of_none (arriving_none_of_quiet hp hq)

theorem step_encode {s : State} (hp : s.phase = .encode) (hq : quiet s = true) :
    step s = (encodeAction s).result := by
  rw [step_of_quiet (by simp [hp]) hq, seqAction, hp]

theorem step_send {s : State} (hp : s.phase = .send) (hq : quiet s = true) : step s = sendStep s := by
  rw [step_of_quiet (by simp [hp]) hq, seqAction, hp]
  rfl

theorem step_receive {s : State} (hp : s.phase = .receive) (hq : quiet s = true) :
    step s = receiveStep s := by
  rw [step_of_quiet (by simp [hp]) hq, seqAction, hp]
  rfl

theorem step_validate {s : State} (hp : s.phase = .validate) (hq : quiet s = true) :
    step s = (validateAction s).result := by
  rw [step_of_quiet (by simp [hp]) hq, seqAction, hp]

theorem step_done {s : State} (hp : s.phase = .done) (hq : quiet s = true) : step s = doneStep s := by
  rw [step_of_quiet (by simp [hp]) hq, seqAction, hp]
  rfl

/-- An outcome waiting in a quiet block is written by the next step. -/
theorem step_ending {s : State} {e : Ending} (hp : s.phase = .done) (hq : quiet s = true)
    (he : s.pending = .ending e) : step s = .next (finish e s) := by
  rw [step_done hp hq, doneStep, he]

/-- An operation that just ended is written by the next step. -/
theorem step_endWith (e : Ending) {s : State} (hq : quiet s = true) :
    step (endWith e s) = .next (finish e (endWith e s)) := step_ending rfl hq rfl

/-! ## What a row can answer -/

/-- A request row goes on to one of two states: ended before anything was built, or its frame stored
(R130, R131). -/
def requestEndings : List Ending :=
  [.fail .argCount, .refused .badCoilValue, .refused .byteCountOverflow, .refused .bufferOverflow]

theorem emit_request {fn : Byte} {n : Nat} {stn : Byte} {payload : List Byte} {s t : State}
    (h : emit n (stn :: fn :: payload) s = .next t) :
    (∃ e ∈ requestEndings, t = endWith e s) ∨
      ∃ body, body[1]? = some fn ∧ body.length + 2 ≤ s.cfg.txBufMax ∧ t = storeFrame body s := by
  rcases emit_cases n (stn :: fn :: payload) s with ⟨-, he⟩ | ⟨hl, -, he⟩ <;> rw [he] at h <;> cases h
  · exact .inl ⟨_, by simp [requestEndings], rfl⟩
  · exact .inr ⟨_, rfl, hl, rfl⟩

theorem request_cases {i : Instr} {fn : Byte} {s t : State} (hi : requestFn i = some fn)
    (h : exec i s = .next t) :
    (∃ e ∈ requestEndings, t = endWith e s) ∨
      ∃ body, body[1]? = some fn ∧ body.length + 2 ≤ s.cfg.txBufMax ∧ t = storeFrame body s := by
  cases i <;> simp only [requestFn, Option.some.injEq, reduceCtorEq] at hi <;> subst hi
  case wmc stn start qty coils =>
    simp only [exec, execWmc] at h
    split at h
    · cases h; exact .inl ⟨_, by simp [requestEndings], rfl⟩
    · split at h
      · cases h; exact .inl ⟨_, by simp [requestEndings], rfl⟩
      · split at h
        · cases h; exact .inl ⟨_, by simp [requestEndings], rfl⟩
        · exact emit_request h
  case wmr stn start qty values =>
    simp only [exec, execWmr] at h
    split at h
    · cases h; exact .inl ⟨_, by simp [requestEndings], rfl⟩
    · split at h
      · cases h; exact .inl ⟨_, by simp [requestEndings], rfl⟩
      · exact emit_request h
  all_goals exact emit_request h

/-- A decoder goes on with the state it had, its outcome waiting: a result or a layout mismatch. -/
def Decodes (d : State → StepResult) : Prop :=
  ∀ s t, d s = .next t → ∃ e, (e = .refused .layoutMismatch ∨ ∃ r, e = .ok r) ∧ t = endWith e s

theorem decodes_mismatch {s t : State} (h : layoutMismatch s = .next t) :
    ∃ e, (e = .refused .layoutMismatch ∨ ∃ r, e = .ok r) ∧ t = endWith e s := by
  cases h; exact ⟨_, .inl rfl, rfl⟩

theorem decodes_ok {r : Result} {s t : State} (h : okWith r s = .next t) :
    ∃ e, (e = .refused .layoutMismatch ∨ ∃ r, e = .ok r) ∧ t = endWith e s := by
  cases h; exact ⟨_, .inr ⟨_, rfl⟩, rfl⟩

theorem decodeRaw_decodes : Decodes decodeRaw := fun s t h => by
  obtain ⟨r, -, h⟩ := decodeRaw_cases h
  exact ⟨_, .inr ⟨_, rfl⟩, h⟩

theorem decodeBits_decodes : Decodes decodeBits := fun s t h => by
  unfold decodeBits at h
  split at h
  · exact decodes_mismatch h
  obtain ⟨_, -, h⟩ := reading_next h
  obtain ⟨_, -, h⟩ := reading_next h
  obtain ⟨_, -, h⟩ := reading_next h
  split at h
  · exact decodes_mismatch h
  obtain ⟨_, -, h⟩ := reading_next h
  exact decodes_ok h

theorem decodeRegs_decodes : Decodes decodeRegs := fun s t h => by
  unfold decodeRegs at h
  split at h
  · exact decodes_mismatch h
  obtain ⟨_, -, h⟩ := reading_next h
  obtain ⟨_, -, h⟩ := reading_next h
  obtain ⟨_, -, h⟩ := reading_next h
  split at h
  · exact decodes_mismatch h
  obtain ⟨_, -, h⟩ := reading_next h
  exact decodes_ok h

theorem decodeEcho_decodes : Decodes decodeEcho := fun s t h => by
  unfold decodeEcho at h
  split at h
  · exact decodes_mismatch h
  obtain ⟨_, -, h⟩ := reading_next h
  obtain ⟨_, -, h⟩ := reading_next h
  obtain ⟨_, -, h⟩ := reading_next h
  obtain ⟨_, -, h⟩ := reading_next h
  exact decodes_ok h

theorem decodeStatus_decodes : Decodes decodeStatus := fun s t h => by
  unfold decodeStatus at h
  split at h
  · exact decodes_mismatch h
  obtain ⟨_, -, h⟩ := reading_next h
  obtain ⟨_, -, h⟩ := reading_next h
  obtain ⟨_, -, h⟩ := reading_next h
  exact decodes_ok h

theorem decodeCounter_decodes : Decodes decodeCounter := fun s t h => by
  unfold decodeCounter at h
  split at h
  · exact decodes_mismatch h
  obtain ⟨_, -, h⟩ := reading_next h
  obtain ⟨_, -, h⟩ := reading_next h
  obtain ⟨_, -, h⟩ := reading_next h
  obtain ⟨_, -, h⟩ := reading_next h
  exact decodes_ok h

theorem decodeLog_decodes : Decodes decodeLog := fun s t h => by
  unfold decodeLog at h
  split at h
  · exact decodes_mismatch h
  obtain ⟨_, -, h⟩ := reading_next h
  obtain ⟨_, -, h⟩ := reading_next h
  obtain ⟨_, -, h⟩ := reading_next h
  split at h
  · exact decodes_mismatch h
  obtain ⟨_, -, h⟩ := reading_next h
  obtain ⟨_, -, h⟩ := reading_next h
  obtain ⟨_, -, h⟩ := reading_next h
  obtain ⟨_, -, h⟩ := reading_next h
  exact decodes_ok h

/-- The outcomes of a response row: no BusyStart, no transport failure, no argument count. -/
def Ending.ofResponse : Ending → Prop
  | .ok _ => True
  | .fail .checkFails => True
  | .fail .tooShort => True
  | .fail .illegalErrorCode => True
  | .fail (.deviceException _) => True
  | .refused r => r = .layoutMismatch
  | .fail .argCount => False
  | .fail (.transportFailure _) => False
  | .fail (.handleFailure _) => False
  | .handleOk => False

theorem checkedDecode_next {d : State → StepResult} (hd : Decodes d) {s t : State}
    (h : checkedDecode d s = .next t) :
    ∃ e c, e.ofResponse ∧ t = endWith e { s with crc := c } := by
  obtain ⟨body, received, -, -, ⟨-, h⟩ | ⟨-, -, h⟩ | ⟨-, -, h⟩⟩ := checkedDecode_cases h
  · exact ⟨.fail .checkFails, _, trivial, h⟩
  · obtain ⟨r, -, h⟩ := decodeRaw_cases h
    exact ⟨.ok (.raw r), _, trivial, h⟩
  · obtain ⟨e, rfl | ⟨r, rfl⟩, h⟩ := hd _ _ h
    · exact ⟨.refused .layoutMismatch, _, rfl, h⟩
    · exact ⟨.ok r, _, trivial, h⟩

/-- A response row changes CRC at most, and its outcome waits in DONE (R162, R217). -/
theorem response_cases {f : Byte} {reqFn : Byte} {i : Instr} (hi : decode (.response reqFn f) = .ok i)
    {s t : State} (h : exec i s = .next t) :
    ∃ e c, e.ofResponse ∧ t = endWith e { s with crc := c } := by
  have hrow : i = .exceptionResponse ∨ decodeSuccess reqFn = .ok i := by
    simp only [decode, decodeResponse] at hi
    split at hi
    · exact .inr hi
    · split at hi
      · cases hi; exact .inl rfl
      · cases hi
  rcases hrow with rfl | hi
  · obtain ⟨e, -, h⟩ := reading_next (k := fun e => .next (endWith (.fail (.deviceException e)) s)) h
    cases h
    exact ⟨.fail (.deviceException e), s.crc, trivial, rfl⟩
  · unfold decodeSuccess at hi
    split at hi <;> cases hi
    · exact checkedDecode_next decodeBits_decodes h
    · exact checkedDecode_next decodeBits_decodes h
    · exact checkedDecode_next decodeRegs_decodes h
    · exact checkedDecode_next decodeRegs_decodes h
    · exact checkedDecode_next decodeEcho_decodes h
    · exact checkedDecode_next decodeEcho_decodes h
    · exact checkedDecode_next decodeStatus_decodes h
    · exact checkedDecode_next decodeRaw_decodes h
    · exact checkedDecode_next decodeCounter_decodes h
    · exact checkedDecode_next decodeLog_decodes h
    · exact checkedDecode_next decodeRaw_decodes h
    · exact checkedDecode_next decodeRaw_decodes h
    · exact checkedDecode_next decodeRaw_decodes h

/-! ## The step of each phase -/

/-- The command the registers hold decodes to the request row of FN. -/
theorem decode_commandOperands {s : State} {w : PortWord} (h : commandOperands s = .ok w) :
    ∃ fn i, s.fn = some fn ∧ catalogued fn = true ∧ decode w = .ok i ∧ requestFn i = some fn := by
  obtain ⟨fn, stn, raw, a, b, vals, hfn, hcat, -, -, -, -, -, rfl⟩ := commandOperands_ok h
  refine ⟨fn, ?_⟩
  simp only [decode, decodeCommand]
  unfold catalogued at hcat
  split at hcat <;> try cases hcat
  all_goals
    rename_i he
    have hv : fn = BitVec.ofNat 8 fn.toNat := by simp
    rw [he] at hv
    subst hv
    exact ⟨_, hfn, rfl, rfl, rfl⟩

/-- ENCODE ends in a reason of its checks, or stores a frame whose byte 1 is FN (R88, R130, R212). -/
theorem encodeAction_cases {s t : State} (h : (encodeAction s).result = .next t) :
    (∃ e, (e = .refused .unknownFunction ∨ e = .refused .unwrittenOperand ∨ e ∈ requestEndings) ∧
        t = endWith e s) ∨
      ∃ fn body, s.fn = some fn ∧ catalogued fn = true ∧ body[1]? = some fn ∧
        body.length + 2 ≤ s.cfg.txBufMax ∧ t = storeFrame body s := by
  unfold encodeAction at h
  match hc : commandOperands s with
  | .error r =>
    rw [hc] at h
    cases h
    rcases commandOperands_error hc with rfl | rfl
    · exact .inl ⟨_, .inl rfl, rfl⟩
    · exact .inl ⟨_, .inr (.inl rfl), rfl⟩
  | .ok w =>
    obtain ⟨fn, i, hfn, hcat, hd, hi⟩ := decode_commandOperands hc
    simp only [hc, hd] at h
    rcases request_cases hi h with ⟨e, he, h⟩ | ⟨body, hb, hl, h⟩
    · exact .inl ⟨e, .inr (.inr he), h⟩
    · exact .inr ⟨fn, body, hfn, hcat, hb, hl, h⟩

/-- VALIDATE changes CRC at most, and its outcome waits in DONE (R160, R161, R217). -/
theorem validateAction_cases {s t : State} (h : (validateAction s).result = .next t) :
    ∃ e c, e.ofResponse ∧ t = endWith e { s with crc := c } := by
  unfold validateAction at h
  split at h
  · cases h; exact ⟨.fail .tooShort, s.crc, trivial, rfl⟩
  · split at h
    · cases h
    · split at h
      · next hi => exact response_cases hi h
      · cases h; exact ⟨.fail .illegalErrorCode, s.crc, trivial, rfl⟩
      · cases h

/-- DONE writes the waiting outcome, or takes the answer to `open` or `close`, or waits for it (R218,
R222, R223). -/
theorem doneStep_cases {s t : State} (h : doneStep s = .next t) :
    (∃ e, s.pending = .ending e ∧ t = finish e s) ∨
    ∃ call up, ((s.pending = .opening ∧ call = .openLine ∧ up = true) ∨
        (s.pending = .closing ∧ call = .closeLine ∧ up = false)) ∧
      ((s.lineAns = [] ∧ t = s) ∨
        (∃ rest, s.lineAns = .ok :: rest ∧
          t = finish .handleOk { s with lineAns := rest, calls := s.calls ++ [call], xopen := up }) ∨
        (∃ e rest, s.lineAns = .err e :: rest ∧
          t = finish (.fail (.handleFailure e)) { s with lineAns := rest, calls := s.calls ++ [call] })) := by
  unfold doneStep at h
  split at h
  · next e he => cases h; exact .inl ⟨e, he, rfl⟩
  · next he => exact .inr ⟨_, _, .inl ⟨he, rfl, rfl⟩, handleStep_cases h⟩
  · next he => exact .inr ⟨_, _, .inr ⟨he, rfl, rfl⟩, handleStep_cases h⟩
  · cases h

/-- A host write ends in the same state while busy, in the written register in IDLE (R21). -/
theorem writeReg_cases {w : RegWrite} {s t : State} (h : writeReg w s = .next t) :
    (s.phase ≠ .idle ∧ t = s) ∨ (s.phase = .idle ∧ putReg w s = .next t) := by
  unfold writeReg busy at h
  by_cases hp : s.phase = .idle
  · rw [if_neg (by simp [hp])] at h
    exact .inr ⟨hp, h⟩
  · rw [if_pos (by simp [hp])] at h
    cases h
    exact .inl ⟨hp, rfl⟩

/-- What a host event that lands can do (R225). -/
theorem hostAction_cases {e : HostEvent} {s t : State} (h : (hostAction e s).result = .next t) :
    (∃ w, e = .write w ∧
      ((s.phase ≠ .idle ∧ t = s) ∨ (s.phase = .idle ∧ putReg w s = .next t))) ∨
    (e = .rst ∧ t = hardReset s) ∨
    (∃ init en din, e = .crcPort init en din ∧
      (t = s ∨ (s.phase = .idle ∧ ∃ c, t = { s with crc := c }))) ∨
    (∃ c, e = .xltPort c ∧ t = { s with xltId := xrom c }) ∨
    (∃ kind, e = .command kind ∧
      ((kind = 0 ∧ t = s) ∨
        (kind = 1 ∧ s.phase = .idle ∧ t = startExchange s) ∨
        (∃ p, ((kind = 2 ∧ p = .opening) ∨ (kind = 3 ∧ p = .closing)) ∧ s.phase = .idle ∧
          t = { clearOutcome s with phase := .done, pending := p }))) := by
  cases e with
  | write w => exact .inl ⟨w, rfl, writeReg_cases h⟩
  | rst => cases h; exact .inr (.inl ⟨rfl, rfl⟩)
  | crcPort init en din =>
    refine .inr (.inr (.inl ⟨init, en, din, rfl, ?_⟩))
    have key : ∀ op : State → State, (∃ c, op s = { s with crc := c }) → onCrcPort op s = .next t →
        t = s ∨ (s.phase = .idle ∧ ∃ c, t = { s with crc := c }) := by
      intro op hop ht
      rw [onCrcPort_eq] at ht
      cases ht
      split
      · next hp => exact .inr ⟨hp, hop⟩
      · exact .inl rfl
    cases init <;> cases en
    · exact key id ⟨s.crc, rfl⟩ h
    · exact key (opCrcUpdate din) ⟨_, rfl⟩ h
    · exact key opCrcInit ⟨_, rfl⟩ h
    · exact key opCrcInit ⟨_, rfl⟩ h
  | xltPort c => cases h; exact .inr (.inr (.inr (.inl ⟨c, rfl, rfl⟩)))
  | command kind =>
    refine .inr (.inr (.inr (.inr ⟨kind, rfl, ?_⟩)))
    have hk : ∀ k : BitVec 2, k = 0 ∨ k = 1 ∨ k = 2 ∨ k = 3 := by decide
    replace hk := hk kind
    rcases hk with rfl | rfl | rfl | rfl
    · cases h; exact .inl ⟨rfl, rfl⟩
    · have h' : hostStart s = .next t := h
      unfold hostStart busy at h'
      split at h'
      · cases h'
      · next hb => cases h'; exact .inr (.inl ⟨rfl, by simpa using hb, rfl⟩)
    · have h' : beginHandle .opening s = .next t := h
      rw [beginHandle_eq] at h'
      split at h'
      · next hp => cases h'; exact .inr (.inr ⟨.opening, .inl ⟨rfl, rfl⟩, hp, rfl⟩)
      · cases h'
    · have h' : beginHandle .closing s = .next t := h
      rw [beginHandle_eq] at h'
      split at h'
      · next hp => cases h'; exact .inr (.inr ⟨.closing, .inr ⟨rfl, rfl⟩, hp, rfl⟩)
      · cases h'

/-! ## The whole step -/

/-- A step that goes on: a host event landed, or the block took the step of its phase. The lemmas
`hostAction_cases`, `encodeAction_cases`, `sendStep_cases`, `receiveStep_cases`,
`validateAction_cases` and `doneStep_cases` say what each of these can be. -/
theorem step_cases {s t : State} (h : step s = .next t) :
    (∃ e rest, lands e rest s ∧ (hostAction e { s with hostIn := rest }).result = .next t) ∨
    (arriving s = none ∧
      ((s.phase = .idle ∧ t = s) ∨
        (s.phase = .encode ∧ (encodeAction s).result = .next t) ∨
        (s.phase = .send ∧ sendStep s = .next t) ∨
        (s.phase = .receive ∧ receiveStep s = .next t) ∨
        (s.phase = .validate ∧ (validateAction s).result = .next t) ∨
        (s.phase = .done ∧ doneStep s = .next t))) := by
  match ha : arriving s with
  | some (e, rest) =>
    have hl := (arriving_iff_lands s e rest).1 ha
    rw [step_of_lands hl] at h
    exact .inl ⟨e, rest, hl, h⟩
  | none =>
    rw [step_of_none ha] at h
    refine .inr ⟨rfl, ?_⟩
    unfold seqAction at h
    split at h
    · next hp => cases h; exact .inl ⟨hp, rfl⟩
    · next hp => exact .inr (.inl ⟨hp, h⟩)
    · next hp => exact .inr (.inr (.inl ⟨hp, h⟩))
    · next hp => exact .inr (.inr (.inr (.inl ⟨hp, h⟩)))
    · next hp => exact .inr (.inr (.inr (.inr (.inl ⟨hp, h⟩))))
    · next hp => exact .inr (.inr (.inr (.inr (.inr ⟨hp, h⟩))))

end Sys2Proof.Machine
end

