-- ==== Sys2Proof/Laws/PerInstr.lean ====
section
/-! SUPPORT. Statements per instruction: the port word written for an instruction decodes back to it
(30_encoding.md R86, R87, R92). -/

namespace Sys2Proof.Laws.PortRoundTrip

/-- Decoding the port word of the instruction gives it back. -/
def Statement (i : Instr) : Prop := decode (encode i) = .ok i

theorem rc (station : Byte) (start qty : Word) : Statement (.rc station start qty) := rfl
theorem rdi (station : Byte) (start qty : Word) : Statement (.rdi station start qty) := rfl
theorem rhr (station : Byte) (start qty : Word) : Statement (.rhr station start qty) := rfl
theorem rir (station : Byte) (start qty : Word) : Statement (.rir station start qty) := rfl
theorem wsc (station : Byte) (addr value : Word) : Statement (.wsc station addr value) := rfl
theorem wsr (station : Byte) (addr value : Word) : Statement (.wsr station addr value) := rfl
theorem res (station : Byte) : Statement (.res station) := rfl
theorem diag (station : Byte) (sub : Word) (data : List Word) : Statement (.diag station sub data) := rfl
theorem gcec (station : Byte) : Statement (.gcec station) := rfl
theorem gcel (station : Byte) : Statement (.gcel station) := rfl
theorem wmc (station : Byte) (start qty : Word) (coils : List Word) : Statement (.wmc station start qty coils) := rfl
theorem wmr (station : Byte) (start qty : Word) (values : List Word) : Statement (.wmr station start qty values) := rfl
theorem rsid (station : Byte) : Statement (.rsid station) := rfl
theorem rcResponse : Statement .rcResponse := rfl
theorem rdiResponse : Statement .rdiResponse := rfl
theorem rhrResponse : Statement .rhrResponse := rfl
theorem rirResponse : Statement .rirResponse := rfl
theorem wscResponse : Statement .wscResponse := rfl
theorem wsrResponse : Statement .wsrResponse := rfl
theorem resResponse : Statement .resResponse := rfl
theorem diagResponse : Statement .diagResponse := rfl
theorem gcecResponse : Statement .gcecResponse := rfl
theorem gcelResponse : Statement .gcelResponse := rfl
theorem wmcResponse : Statement .wmcResponse := rfl
theorem wmrResponse : Statement .wmrResponse := rfl
theorem rsidResponse : Statement .rsidResponse := rfl
theorem exceptionResponse : Statement .exceptionResponse := rfl
theorem crcInit : Statement .crcInit := rfl
theorem crcUpdate (b : Byte) : Statement (.crcUpdate b) := rfl
theorem crcHold : Statement .crcHold := rfl
theorem xltLookup (c : Byte) : Statement (.xltLookup c) := rfl
theorem openLine : Statement .openLine := rfl
theorem closeLine : Statement .closeLine := rfl

end Sys2Proof.Laws.PortRoundTrip
end

