-- ==== Sys2Proof/Tests/Slice0.lean ====
section
/-! SUPPORT. The model's own tests: the well-formedness smoke test, words written out from the spec's
encodings, single steps with results taken from 95_test_vectors.md, and for each statement of
Certificates/Slice0/Obligations.lean a witness that its hypotheses can be met, clause by clause. -/

/- Many small theorems proved at once each hold a thread of their own; one after another they need none. -/
set_option Elab.async false

namespace Sys2Proof.Tests

open Sys2Proof Sys2Proof.Machine

/-! ## Helpers -/

/-- A block in ENCODE with this layout of coils and this room in TXB. -/
def encoding (mode : WmcMode) (txMax : Nat) : State :=
  { State.reset with phase := .encode, cfg := { Config.defaults with wmcMode := mode, txBufMax := txMax } }

/-- The frame a step left in TXB, if it went on to SEND. -/
def built (o : StepResult) : Option (List Byte) :=
  match o with
  | .next t => if t.phase = .send then (txFrame t).toOption else none
  | .fault _ => none
  | .refused _ => none

/-- A block in VALIDATE that holds this response to a request of this function. -/
def answered (fn : Byte) (raw : Bool) (r : List Byte) : State :=
  { State.reset with
    phase := .validate, reqFn := fn, reqRaw := raw, rxb := writeBytes [] 0 r, rxLen := r.length }

/-- What waits in DONE after a step. -/
def ended (o : StepResult) : Pending :=
  match o with
  | .next t => if t.phase = .done then t.pending else .nothing
  | .fault _ => .nothing
  | .refused _ => .nothing

/-- One field of the next state. -/
def after {α : Type} (f : State → α) (o : StepResult) : Option α :=
  match o with
  | .next t => some (f t)
  | .fault _ => none
  | .refused _ => none

/-- Why a step refused. -/
def refusal (o : StepResult) : Option Refusal :=
  match o with
  | .next _ => none
  | .fault _ => none
  | .refused r => some r

/-- The state a step goes on to, or the given one. -/
def nextOr (s : State) (o : StepResult) : State :=
  match o with
  | .next t => t
  | .fault _ => s
  | .refused _ => s

/-- A block with every command register written. -/
def commanded (fn : Byte) (a b : Word) (vals : List Word) : State :=
  { State.reset with
    stn := some 1, fn := some fn, a := some a, b := some b, raw := some false
    nv := some vals.length, v := (List.range vals.length).zip vals }

/-! ## Well-formedness: each check refuses an ill-formed term -/

theorem test_illFormed_wmc_count : illFormed .packed (.wmc 1 0 3 [1, 0]) = some .argCount := by decide
theorem test_illFormed_wmr_count : illFormed .packed (.wmr 1 0 0 [5]) = some .argCount := by decide
theorem test_illFormed_coil_packed : illFormed .packed (.wmc 1 0 3 [1, 0, 0xFF]) = some .coilValue := by
  decide
theorem test_illFormed_coil_literal : illFormed .literal (.wmc 1 0 1 [0x0100]) = some .coilValue := by
  decide
theorem test_illFormed_wmr_bytes :
    illFormed .packed (.wmr 1 0 128 (List.replicate 128 0)) = some .byteCount := by decide +kernel
theorem test_illFormed_wmc_bytes :
    illFormed .literal (.wmc 1 0 2041 (List.replicate 2041 0)) = some .byteCount := by decide +kernel
theorem test_wellFormed_literal : wellFormed .literal (.wmc 1 0 3 [1, 0, 0xFF]) = true := by decide
theorem test_wellFormed_wmr_limit :
    wellFormed .packed (.wmr 1 0 127 (List.replicate 127 0)) = true := by decide +kernel

/-! ## Decoding: words from the spec's encodings (30_encoding.md R80 to R93, 95 section 2) -/

theorem test_decode_rc : (parseRequest .packed
    [0x01, 0x01, 0x00, 0x13, 0x00, 0x13, 0x8C, 0x02]).toOption =
    some (.rc 1 0x0013 0x0013) := by decide +kernel

theorem test_decode_rc_station : (parseRequest .packed
    [0x11, 0x01, 0x00, 0x13, 0x00, 0x25, 0x0E, 0x84]).toOption =
    some (.rc 0x11 0x0013 0x0025) := by decide +kernel

theorem test_decode_rdi : (parseRequest .packed
    [0x02, 0x02, 0x00, 0xC4, 0x00, 0x16, 0xB8, 0x0A]).toOption =
    some (.rdi 2 0x00C4 0x0016) := by decide +kernel

theorem test_decode_rhr : (parseRequest .packed
    [0x11, 0x03, 0x00, 0x6B, 0x00, 0x03, 0x76, 0x87]).toOption =
    some (.rhr 0x11 0x006B 3) := by decide +kernel

theorem test_decode_rir : (parseRequest .packed
    [0x01, 0x04, 0x00, 0x08, 0x00, 0x01, 0xB0, 0x08]).toOption =
    some (.rir 1 8 1) := by decide +kernel

theorem test_decode_wsc : (parseRequest .packed
    [0x01, 0x05, 0x00, 0xAC, 0x12, 0x34, 0x00, 0x9C]).toOption =
    some (.wsc 1 0x00AC 0x1234) := by decide +kernel

theorem test_decode_wsr : (parseRequest .packed
    [0x01, 0x06, 0x00, 0x10, 0xAB, 0xCD, 0x36, 0xAA]).toOption =
    some (.wsr 1 0x0010 0xABCD) := by decide +kernel

theorem test_decode_res : (parseRequest .packed
    [0x01, 0x07, 0x41, 0xE2]).toOption =
    some (.res 1) := by decide +kernel

theorem test_decode_diag : (parseRequest .packed
    [0x01, 0x08, 0x00, 0x00, 0xA5, 0x37, 0xDA, 0x8D]).toOption =
    some (.diag 1 0x0000 [0xA537]) := by decide +kernel

theorem test_decode_diag_empty : (parseRequest .packed
    [0x01, 0x08, 0x00, 0x0A, 0x00, 0x1D]).toOption =
    some (.diag 1 0x000A []) := by decide +kernel

theorem test_decode_gcec : (parseRequest .packed
    [0x01, 0x0B, 0x41, 0xE7]).toOption =
    some (.gcec 1) := by decide +kernel

theorem test_decode_gcel : (parseRequest .packed
    [0x01, 0x0C, 0x00, 0x25]).toOption =
    some (.gcel 1) := by decide +kernel

theorem test_decode_wmc_packed : (parseRequest .packed
    [0x01, 0x0F, 0x00, 0x13, 0x00, 0x0A, 0x02, 0xCD, 0x01, 0x72, 0xCB]).toOption =
    some (.wmc 1 0x0013 10 [1, 0, 1, 1, 0, 0, 1, 1, 1, 0]) := by decide +kernel

theorem test_decode_wmc_literal : (parseRequest .literal
    [0x01, 0x0F, 0x00, 0x00, 0x00, 0x03, 0x01, 0x01, 0x00, 0xFF, 0x34, 0x4E]).toOption =
    some (.wmc 1 0 3 [1, 0, 0xFF]) := by decide +kernel

theorem test_decode_wmr : (parseRequest .packed
    [0x01, 0x10, 0x00, 0x01, 0x00, 0x02, 0x04, 0x00, 0x0A, 0x01, 0x02, 0x92, 0x30]).toOption =
    some (.wmr 1 1 2 [0x000A, 0x0102]) := by decide +kernel

theorem test_decode_rsid : (parseRequest .packed
    [0x01, 0x11, 0xC0, 0x2C]).toOption =
    some (.rsid 1) := by decide +kernel

/-- One bit of the checksum wrong. -/
theorem test_decode_bad_checksum : (parseRequest .packed [0x01, 0x07, 0x41, 0xE3]).toOption = none := by
  decide +kernel

/-- A payload of another function's format. -/
theorem test_decode_bad_payload :
    (parseRequest .packed (withCrc [0x01, 0x07, 0x00])).toOption = none := by decide +kernel

/-- The function codes of R86 on a command. -/
theorem test_tableWords : [0x01, 0x02, 0x03, 0x04, 0x05, 0x06, 0x07, 0x08, 0x0B, 0x0C, 0x0F, 0x10, 0x11].map (decodeTableWord 8) =
    [some (.rc 0 0 0), some (.rdi 0 0 0), some (.rhr 0 0 0), some (.rir 0 0 0), some (.wsc 0 0 0), some (.wsr 0 0 0), some (.res 0), some (.diag 0 0 []), some (.gcec 0), some (.gcel 0), some (.wmc 0 0 0 []), some (.wmr 0 0 0 []), some (.rsid 0)] := by decide

/-- The function codes of R86 on a response to a request of the same code. -/
theorem test_decode_responses :
    [0x01, 0x02, 0x03, 0x04, 0x05, 0x06, 0x07, 0x08, 0x0B, 0x0C, 0x0F, 0x10, 0x11].map (fun f => (decode (.response f f)).toOption) =
    [some .rcResponse, some .rdiResponse, some .rhrResponse, some .rirResponse, some .wscResponse, some .wsrResponse, some .resResponse, some .diagResponse, some .gcecResponse, some .gcelResponse, some .wmcResponse, some .wmrResponse, some .rsidResponse] := by decide

/-- Operand bytes above the function byte: station, then A and B high byte first. -/
theorem test_tableWord_operands :
    decodeTableWord 48 0x020013000103 = some (.rhr 0x01 0x0013 0x0002) := by decide

/-- The unassigned codes and a code with bit 7 set are no command (R88, 95 section 2.8). -/
theorem test_decode_unassigned : [0x00, 0x09, 0x0A, 0x17, 0x83].map (fun f => (decode (.command f 1 0 0 [])).toOption) =
    [none, none, none, none, none] := by decide

/-- The exception response of each request, and of another function (R83, R87). -/
theorem test_decode_exception :
    decode (.response 0x03 0x83) = .ok .exceptionResponse ∧
    decode (.response 0x03 0x84) = .error (.illegalFunctionByte 0x84) ∧
    decode (.response 0x03 0x04) = .error (.illegalFunctionByte 0x04) := ⟨rfl, rfl, rfl⟩

/-- The port encodings of R92: CRC `1x`, `01`, `00`, the XLT code, `cmd_kind` 10, 11, 01, 00. -/
theorem test_decode_ports :
    decode (.crc true false 0x55) = .ok .crcInit ∧ decode (.crc false true 0x55) = .ok (.crcUpdate 0x55) ∧
    decode (.crc false false 0x55) = .ok .crcHold ∧ decode (.xlt 0x0B) = .ok (.xltLookup 0x0B) ∧
    decode (.cmd 2) = .ok .openLine ∧ decode (.cmd 3) = .ok .closeLine ∧
    decode (.cmd 1) = .error .startOfExchange ∧ decode (.cmd 0) = .error .noCommand :=
  ⟨rfl, rfl, rfl, rfl, rfl, rfl, rfl, rfl⟩

/-! ## Requests: frames of 95 section 2 -/

theorem test_build_rc : built (exec (.rc 1 0x0013 0x0013) (encoding .packed 256)) =
    some [0x01, 0x01, 0x00, 0x13, 0x00, 0x13, 0x8C, 0x02] := by decide +kernel

theorem test_build_rc_station : built (exec (.rc 0x11 0x0013 0x0025) (encoding .packed 256)) =
    some [0x11, 0x01, 0x00, 0x13, 0x00, 0x25, 0x0E, 0x84] := by decide +kernel

theorem test_build_rdi : built (exec (.rdi 2 0x00C4 0x0016) (encoding .packed 256)) =
    some [0x02, 0x02, 0x00, 0xC4, 0x00, 0x16, 0xB8, 0x0A] := by decide +kernel

theorem test_build_rhr : built (exec (.rhr 0x11 0x006B 3) (encoding .packed 256)) =
    some [0x11, 0x03, 0x00, 0x6B, 0x00, 0x03, 0x76, 0x87] := by decide +kernel

theorem test_build_rir : built (exec (.rir 1 8 1) (encoding .packed 256)) =
    some [0x01, 0x04, 0x00, 0x08, 0x00, 0x01, 0xB0, 0x08] := by decide +kernel

theorem test_build_wsc : built (exec (.wsc 1 0x00AC 0x1234) (encoding .packed 256)) =
    some [0x01, 0x05, 0x00, 0xAC, 0x12, 0x34, 0x00, 0x9C] := by decide +kernel

theorem test_build_wsr : built (exec (.wsr 1 0x0010 0xABCD) (encoding .packed 256)) =
    some [0x01, 0x06, 0x00, 0x10, 0xAB, 0xCD, 0x36, 0xAA] := by decide +kernel

theorem test_build_res : built (exec (.res 1) (encoding .packed 256)) =
    some [0x01, 0x07, 0x41, 0xE2] := by decide +kernel

theorem test_build_diag : built (exec (.diag 1 0x0000 [0xA537]) (encoding .packed 256)) =
    some [0x01, 0x08, 0x00, 0x00, 0xA5, 0x37, 0xDA, 0x8D] := by decide +kernel

theorem test_build_diag_empty : built (exec (.diag 1 0x000A []) (encoding .packed 256)) =
    some [0x01, 0x08, 0x00, 0x0A, 0x00, 0x1D] := by decide +kernel

theorem test_build_gcec : built (exec (.gcec 1) (encoding .packed 256)) =
    some [0x01, 0x0B, 0x41, 0xE7] := by decide +kernel

theorem test_build_gcel : built (exec (.gcel 1) (encoding .packed 256)) =
    some [0x01, 0x0C, 0x00, 0x25] := by decide +kernel

theorem test_build_wmc_packed : built (exec (.wmc 1 0x0013 10 [1, 0, 1, 1, 0, 0, 1, 1, 1, 0]) (encoding .packed 256)) =
    some [0x01, 0x0F, 0x00, 0x13, 0x00, 0x0A, 0x02, 0xCD, 0x01, 0x72, 0xCB] := by decide +kernel

theorem test_build_wmc_literal : built (exec (.wmc 1 0 3 [1, 0, 0xFF]) (encoding .literal 256)) =
    some [0x01, 0x0F, 0x00, 0x00, 0x00, 0x03, 0x01, 0x01, 0x00, 0xFF, 0x34, 0x4E] := by decide +kernel

theorem test_build_wmr : built (exec (.wmr 1 1 2 [0x000A, 0x0102]) (encoding .packed 256)) =
    some [0x01, 0x10, 0x00, 0x01, 0x00, 0x02, 0x04, 0x00, 0x0A, 0x01, 0x02, 0x92, 0x30] := by decide +kernel

theorem test_build_rsid : built (exec (.rsid 1) (encoding .packed 256)) =
    some [0x01, 0x11, 0xC0, 0x2C] := by decide +kernel

/-- Wrong counts come before wrong values (95 section 2.6). -/
theorem test_wmc_count_first :
    ended (exec (.wmc 1 0 2 [1, 0, 7]) (encoding .packed 256)) = .ending (.fail .argCount) := by
  decide +kernel

/-- A byte value in packed mode (95 section 2.6). -/
theorem test_wmc_bad_coil :
    ended (exec (.wmc 1 0 3 [1, 0, 0xFF]) (encoding .packed 256)) = .ending (.refused .badCoilValue) := by
  decide +kernel

/-- 128 registers need a byte count of 256 (95 section 2.7). -/
theorem test_wmr_byte_count :
    ended (exec (.wmr 1 0 128 (List.replicate 128 0)) (encoding .packed 1000)) =
      .ending (.refused .byteCountOverflow) := by decide +kernel

/-- 124 registers do not fit 256 bytes (95 section 2.7). -/
theorem test_wmr_buffer :
    ended (exec (.wmr 1 0 124 (List.replicate 124 0)) (encoding .packed 256)) =
      .ending (.refused .bufferOverflow) := by decide +kernel

/-- FN outside the catalogue wins over an unwritten STN (95 section 2.8). -/
theorem test_unknown_function_first :
    ended (step { State.reset with phase := .encode, fn := some 0x09 }) =
      .ending (.refused .unknownFunction) := by decide +kernel

/-- RES reads neither A, B nor NV (95 section 2.8). -/
theorem test_res_operands :
    built (step { State.reset with phase := .encode, stn := some 1, fn := some 7, raw := some false }) =
      some [0x01, 0x07, 0x41, 0xE2] := by decide +kernel

/-- B never written (95 section 2.8). -/
theorem test_rhr_unwritten :
    ended (step { commanded 3 0 2 [] with phase := .encode, b := none }) =
      .ending (.refused .unwrittenOperand) := by decide +kernel

/-! ## Responses: 95 sections 3 and 4 -/

theorem test_response_rc : ended (step (answered 0x01 false
    [0x01, 0x01, 0x03, 0xCD, 0x6B, 0x05, 0x42, 0x82])) =
    .ending (.ok (.bits 1 0x01 3 [0xCD, 0x6B, 0x05])) := by decide +kernel

theorem test_response_rdi : ended (step (answered 0x02 false
    [0x02, 0x02, 0x01, 0xAC, 0xA1, 0xB1])) =
    .ending (.ok (.bits 2 0x02 1 [0xAC])) := by decide +kernel

theorem test_response_rhr : ended (step (answered 0x03 false
    [0x01, 0x03, 0x04, 0x00, 0x0A, 0x00, 0x14, 0xDA, 0x3E])) =
    .ending (.ok (.regs 1 0x03 4 [0x000A, 0x0014])) := by decide +kernel

theorem test_response_rir : ended (step (answered 0x04 false
    [0x01, 0x04, 0x02, 0x00, 0x0A, 0x39, 0x37])) =
    .ending (.ok (.regs 1 0x04 2 [0x000A])) := by decide +kernel

theorem test_response_wsc : ended (step (answered 0x05 false
    [0x01, 0x05, 0x00, 0xAC, 0xFF, 0x00, 0x4C, 0x1B])) =
    .ending (.ok (.echo 1 0x05 0x00AC 0xFF00)) := by decide +kernel

theorem test_response_wsr : ended (step (answered 0x06 false
    [0x01, 0x06, 0x00, 0x01, 0x00, 0x03, 0x98, 0x0B])) =
    .ending (.ok (.echo 1 0x06 0x0001 0x0003)) := by decide +kernel

theorem test_response_res : ended (step (answered 0x07 false
    [0x01, 0x07, 0x6D, 0xE3, 0xDD])) =
    .ending (.ok (.status 1 0x07 0x6D)) := by decide +kernel

theorem test_response_diag : ended (step (answered 0x08 false
    [0x01, 0x08, 0x00, 0x00, 0xA5, 0x37, 0xDA, 0x8D])) =
    .ending (.ok (.raw [0x01, 0x08, 0x00, 0x00, 0xA5, 0x37, 0xDA, 0x8D])) := by decide +kernel

theorem test_response_gcec : ended (step (answered 0x0B false
    [0x01, 0x0B, 0xFF, 0xFF, 0x01, 0x08, 0xA4, 0x79])) =
    .ending (.ok (.counter 1 0x0B 0xFFFF 0x0108)) := by decide +kernel

theorem test_response_gcel : ended (step (answered 0x0C false
    [0x01, 0x0C, 0x08, 0x00, 0x00, 0x01, 0x08, 0x01, 0x21, 0x20, 0x00, 0x0D, 0xC1])) =
    .ending (.ok (.log 1 0x0C 8 0x0000 0x0108 0x0121 [0x20, 0x00])) := by decide +kernel

theorem test_response_wmc : ended (step (answered 0x0F false
    [0x01, 0x0F, 0x00, 0x13, 0x00, 0x0A, 0x24, 0x09])) =
    .ending (.ok (.raw [0x01, 0x0F, 0x00, 0x13, 0x00, 0x0A, 0x24, 0x09])) := by decide +kernel

theorem test_response_wmr : ended (step (answered 0x10 false
    [0x01, 0x10, 0x00, 0x01, 0x00, 0x02, 0x10, 0x08])) =
    .ending (.ok (.raw [0x01, 0x10, 0x00, 0x01, 0x00, 0x02, 0x10, 0x08])) := by decide +kernel

theorem test_response_rsid : ended (step (answered 0x11 false
    [0x01, 0x11, 0x03, 0x42, 0xFF, 0x01, 0xDD, 0xA9])) =
    .ending (.ok (.raw [0x01, 0x11, 0x03, 0x42, 0xFF, 0x01, 0xDD, 0xA9])) := by decide +kernel

theorem test_response_exception : ended (step (answered 0x03 false
    [0x01, 0x83, 0x09, 0x81, 0x36])) =
    .ending (.fail (.deviceException 9)) := by decide +kernel

theorem test_response_exception_unchecked : ended (step (answered 0x03 false
    [0x01, 0x83, 0x02, 0x00, 0x00])) =
    .ending (.fail (.deviceException 2)) := by decide +kernel

theorem test_response_short : ended (step (answered 0x03 false
    [0x01, 0x83, 0x02])) =
    .ending (.fail .tooShort) := by decide +kernel

theorem test_response_other_function : ended (step (answered 0x03 false
    [0x01, 0x04, 0x02, 0x00, 0x0A, 0x39, 0x37])) =
    .ending (.fail .illegalErrorCode) := by decide +kernel

theorem test_response_swapped_checksum : ended (step (answered 0x03 false
    [0x01, 0x03, 0x04, 0x00, 0x0A, 0x00, 0x14, 0x3E, 0xDA])) =
    .ending (.fail .checkFails) := by decide +kernel

theorem test_response_trailing_zero : ended (step (answered 0x03 false
    [0x01, 0x03, 0x04, 0x00, 0x0A, 0x00, 0x14, 0xDA, 0x3E, 0x00])) =
    .ending (.refused .layoutMismatch) := by decide +kernel

theorem test_response_trailing_zero_raw : ended (step (answered 0x03 true
    [0x01, 0x03, 0x04, 0x00, 0x0A, 0x00, 0x14, 0xDA, 0x3E, 0x00])) =
    .ending (.ok (.raw [0x01, 0x03, 0x04, 0x00, 0x0A, 0x00, 0x14, 0xDA, 0x3E, 0x00])) := by decide +kernel

theorem test_response_odd_count : ended (step (answered 0x03 false
    [0x01, 0x03, 0x03, 0x00, 0x01, 0x02, 0xC5, 0xDF])) =
    .ending (.refused .layoutMismatch) := by decide +kernel

theorem test_response_echo_length : ended (step (answered 0x06 false
    [0x01, 0x06, 0x00, 0x01, 0x20, 0x19])) =
    .ending (.refused .layoutMismatch) := by decide +kernel

theorem test_response_log_count : ended (step (answered 0x0C false
    [0x01, 0x0C, 0x05, 0x00, 0x00, 0x00, 0x01, 0x00, 0x4C, 0x02])) =
    .ending (.refused .layoutMismatch) := by decide +kernel

/-! ## Ports and outcomes: 95 sections 2.1, 5 and 6 -/

/-- `crc_step(0xFFFF, 0x01)` (95 section 2.1). -/
theorem test_crc_update : after State.crc (exec (.crcUpdate 0x01) State.reset) = some 0x807E := by
  decide +kernel

/-- INIT wins over enable (95 P4 step 11). -/
theorem test_crc_init :
    after State.crc (step { State.reset with crc := 0, hostIn := [.now (.crcPort true true 0x55)] }) =
      some 0xFFFF := by decide +kernel

theorem test_crc_hold : after State.crc (exec .crcHold { State.reset with crc := 0x0BC4 }) = some 0x0BC4 := by
  decide +kernel

/-- FM's fixture (95 E1). -/
theorem test_crc16_fixture : crc16 [0x01, 0x03, 0x00, 0x00, 0x00, 0x02] = 0x0BC4 := by decide +kernel

/-- The 256 codes fall as R200's table says: an entry, and no entry. -/
theorem test_xlt_lookup : after State.xltId (exec (.xltLookup 0x0B) State.reset) = some 11 ∧
    after State.xltId (exec (.xltLookup 0x07) { State.reset with xltId := 5 }) = some 0 := by
  decide +kernel

/-- OPEN waits, then takes the transport's answer (95 P6 (b), (c)). -/
theorem test_open : after State.phase (exec .openLine State.reset) = some .done ∧
    after State.xopen (step { State.reset with phase := .done, pending := .opening, lineAns := [.ok] }) =
      some true := by decide +kernel

/-- CLOSE clears the handle bit (95 P6 (f)). -/
theorem test_close : after State.xopen
    (step { State.reset with phase := .done, pending := .closing, xopen := true, lineAns := [.ok] }) =
      some false := by decide +kernel

/-- OPEN while receiving has no meaning (95 section 2.8). -/
theorem test_open_busy : refusal (exec .openLine { State.reset with phase := .receive }) = some .busyStart := by
  decide +kernel

/-- P2's outcome: device exception 3. -/
theorem test_done_device :
    after (fun t => (t.resKind, t.resCode, t.resMsg, t.reqCap, t.rspCap, t.phase))
      (step { State.reset with phase := .done, pending := .ending (.fail (.deviceException 3)) }) =
      some (.device, 3, 3, true, true, .idle) := by decide +kernel

/-- P3 (a)'s outcome: the argument count, with the default code. -/
theorem test_done_argCount :
    after (fun t => (t.resKind, t.resCode, t.resMsg, t.reqCap, t.rspCap))
      (step { State.reset with phase := .done, pending := .ending (.fail .argCount) }) =
      some (.localFailure, 0, 15, false, false) := by decide +kernel

/-- P6 (a)'s outcome: the transport's error. -/
theorem test_done_transport (e : TransportError) :
    after (fun t => (t.resKind, t.xerr, t.reqCap, t.rspCap))
      (step { State.reset with phase := .done, pending := .ending (.fail (.transportFailure e)) }) =
      some (.transport, e, true, false) := rfl

/-- The buffers and the handle bit are readable only beside an outcome (44_exchange.md R225). -/
theorem test_views_gated : xopenView { State.reset with xopen := true } = none ∧
    after xopenView (step { State.reset with phase := .done, pending := .opening, lineAns := [.ok] }) =
      some (some true) := by decide +kernel

/-- P5 (a): the layout mismatch is refused, and the run is marked. -/
theorem test_refused_marks : after (fun t => (t.refusal, notRefused t)) (step (answered 0x03 false
    [0x01, 0x03, 0x04, 0x00, 0x0A, 0x00, 0x14, 0xDA, 0x3E, 0x00])) =
      some (some .layoutMismatch, false) := by decide +kernel

/-! ## The first step after reset runs the word that is placed -/

theorem test_fetch_request :
    built (step (State.reset.withFetchWord 8 0x07)) = built (exec (.res 0) (encoding .packed 256)) := by
  decide +kernel

theorem test_fetch_exception :
    ended (step (State.reset.withFetchWord 8 0x80)) = .ending (.fail (.deviceException 0)) := by
  decide +kernel

/-! ## Witnesses: the hypotheses of each statement can be met -/

/-- A block with this frame out, not yet handed to the transport. -/
def sending (fn : Byte) (f : List Byte) : State :=
  { State.reset with phase := .send, reqFn := fn, txb := writeBytes [] 0 f, txLen := f.length }

theorem rxFrame_filled {s : State} (r : List Byte) (hb : s.rxb = writeBytes [] 0 r)
    (hl : s.rxLen = r.length) : rxFrame s = .ok r := by
  rw [rxFrame_ok_iff]
  refine ⟨hl.symm, fun k hk => ?_⟩
  rw [hl] at hk
  simp [hb, read_writeBytes, hk]

theorem txFrame_filled {s : State} (f : List Byte) (hb : s.txb = writeBytes [] 0 f)
    (hl : s.txLen = f.length) : txFrame s = .ok f := by
  rw [txFrame_ok_iff]
  refine ⟨hl.symm, fun k hk => ?_⟩
  rw [hl] at hk
  simp [hb, read_writeBytes, hk]

theorem rxFrame_answered (fn : Byte) (raw : Bool) (r : List Byte) : rxFrame (answered fn raw r) = .ok r :=
  rxFrame_filled r rfl rfl

/-- What a buffer filled from index 0 holds. -/
theorem read_filled (xs : List Byte) (k : Nat) :
    Sparse.read (writeBytes [] 0 xs) k = if k < xs.length then xs[k]? else none := by
  simp [read_writeBytes]

/-- RES 1 out on the line: the invariant holds with a frame in TXB. -/
def resOut : State := { sending 0x07 [0x01, 0x07, 0x41, 0xE2] with lineAns := [.ok] }

theorem inv_resOut : Inv resOut where
  txbForm := by decide
  rxbForm := by decide
  vForm := by decide
  txbBound k hk := by
    have hk : 256 ≤ k := hk
    exact (read_filled _ _).trans (if_neg (by simp; omega))
  rxbBound _ _ := rfl
  vBound _ _ := rfl
  txHeld := ⟨by decide, by decide⟩
  rxHeld := ⟨by decide, by decide⟩
  pendingInDone := by decide
  validInIdle := by decide
  capturesValid := by decide
  responseWithRequest := by decide
  txEmpty h := by rcases h with h | h <;> cases h
  rxEmpty _ := rfl
  refusedMarked h := by rcases h with ⟨_, h⟩ | ⟨h, _⟩ <;> cases h
  latchFn h := by cases h
  latchRaw h := by cases h
  latchCatalogued _ := by decide
  frameOut _ := ⟨[0x01, 0x07, 0x41, 0xE2], txFrame_filled _ rfl rfl, by decide, rfl, by decide +kernel⟩
  resultIsWindow res h := by cases h

/-- The RES response 01 07 6D E3 DD accepted, its outcome waiting in DONE. -/
def statusReady : State :=
  { answered 0x07 false [0x01, 0x07, 0x6D, 0xE3, 0xDD] with
    phase := .done, pending := .ending (.ok (.status 1 0x07 0x6D)) }

theorem rxFrame_statusReady : rxFrame statusReady = .ok [0x01, 0x07, 0x6D, 0xE3, 0xDD] :=
  rxFrame_filled _ rfl rfl

theorem validate_statusReady :
    validateResponse 0x07 false [0x01, 0x07, 0x6D, 0xE3, 0xDD] = .ok (.status 1 0x07 0x6D) := by
  decide +kernel

theorem inv_statusReady : Inv statusReady where
  txbForm := by decide
  rxbForm := by decide
  vForm := by decide
  txbBound _ _ := rfl
  rxbBound k hk := by
    have hk : 256 ≤ k := hk
    exact (read_filled _ _).trans (if_neg (by simp; omega))
  vBound _ _ := rfl
  txHeld := ⟨by decide, by decide⟩
  rxHeld := ⟨by decide, by decide⟩
  pendingInDone := by decide
  validInIdle := by decide
  capturesValid := by decide
  responseWithRequest := by decide
  txEmpty h := by rcases h with h | h <;> cases h
  rxEmpty h := by rcases h with h | h | h <;> cases h
  refusedMarked h := by rcases h with ⟨_, h⟩ | ⟨h, _⟩ <;> cases h
  latchFn h := by cases h
  latchRaw h := by cases h
  latchCatalogued h := by cases h
  frameOut h := by cases h
  resultIsWindow res h := by
    cases h
    exact ⟨_, rxFrame_statusReady, validate_statusReady⟩

/-- An idle block to which the host writes one element past the end of V. -/
def pastEnd : State := { State.reset with stn := some 1, hostIn := [.now (.write (.value 2040 5))] }

theorem inv_pastEnd : Inv pastEnd where
  txbForm := by decide
  rxbForm := by decide
  vForm := by decide
  txbBound _ _ := rfl
  rxbBound _ _ := rfl
  vBound _ _ := rfl
  txHeld := ⟨by decide, by decide⟩
  rxHeld := ⟨by decide, by decide⟩
  pendingInDone := by decide
  validInIdle := by decide
  capturesValid := by decide
  responseWithRequest := by decide
  txEmpty h := by rcases h with h | h <;> cases h
  rxEmpty _ := rfl
  refusedMarked h := by rcases h with ⟨_, h⟩ | ⟨h, _⟩ <;> cases h
  latchFn h := by cases h
  latchRaw h := by cases h
  latchCatalogued h := by cases h
  frameOut h := by cases h
  resultIsWindow res h := by cases h

/-- A block that holds the device failure of code 2 and waits for it to be written. -/
def deviceFailing : State :=
  { answered 0x03 false [0x01, 0x83, 0x02, 0xC0, 0xF1] with
    phase := .done, pending := .ending (.fail (.deviceException 2)) }

theorem legal_deviceFailing : OutcomeLegal deviceFailing where
  localCode h := by cases h
  deviceCode h := by cases h
  refuseReason h := by cases h
  captures h := by cases h
  noBusyStart h := by cases h

/-- A block with a host input that lands now. -/
def hosted (e : HostEvent) (p : Phase) : State := { State.reset with phase := p, hostIn := [.now e] }

theorem lands_hosted (e : HostEvent) (p : Phase) : lands e [] (hosted e p) := .inl rfl

theorem no_event {s : State} (h : s.hostIn = []) (e : HostEvent) (rest : List HostInput) : ¬ lands e rest s := by
  simp [lands, h]

theorem witness_RstPutsTheSpecifiedValues : lands .rst [] (hosted .rst .receive) := lands_hosted _ _

theorem witness_Reset_idle : { State.reset with stn := some 1 }.phase = .idle ∧
    (∀ e rest, ¬ lands e rest { State.reset with stn := some 1 }) ∧
    lands (.command 0) [] (hosted (.command 0) .send) := ⟨rfl, no_event rfl, lands_hosted _ _⟩

theorem witness_StepKeepsInvariant : Inv resOut ∧ ∃ t, step resOut = .next t :=
  ⟨inv_resOut, _, rfl⟩

theorem witness_StepKeepsOutcomeLegal : OutcomeLegal deviceFailing ∧ ∃ t, step deviceFailing = .next t :=
  ⟨legal_deviceFailing, _, rfl⟩

theorem witness_OnlyMissingElementsFault :
    Inv pastEnd ∧ step pastEnd = .fault (.noSuchElement 2040) := ⟨inv_pastEnd, rfl⟩

theorem witness_Busy_refused :
    step (hosted (.command 3) .receive) = .refused .busyStart ∧
    ∃ kind rest, kind ≠ 0 ∧ lands (.command kind) rest (hosted (.command 3) .receive) :=
  ⟨rfl, 3, [], by decide, lands_hosted _ _⟩

theorem witness_Busy_write : (hosted (.write (.stn 1)) .done).phase ≠ .idle ∧
    lands (.write (.stn 1)) [] (hosted (.write (.stn 1)) .done) := ⟨by decide, lands_hosted _ _⟩

theorem witness_PhaseAdvancesOnlyForward : (∃ t, step resOut = .next t) ∧ ∀ rest, ¬ lands .rst rest resOut :=
  ⟨⟨_, rfl⟩, no_event rfl _⟩

theorem witness_OnlyTheHost_noEvent : (∃ t, step resOut = .next t) ∧ noRegisterEvent resOut :=
  ⟨⟨_, rfl⟩, fun _ => no_event rfl _, no_event rfl _⟩

theorem witness_OnlyTheHost_busy :
    (∃ t, step (hosted (.write (.a 1)) .send) = .next t) ∧
    (∀ rest, ¬ lands .rst rest (hosted (.write (.a 1)) .send)) ∧
    (hosted (.write (.a 1)) .send).phase ≠ .idle :=
  ⟨⟨_, rfl⟩, fun rest => by simp [lands, hosted], by decide⟩

theorem witness_HostWrites_register : (hosted (.write (.nv 3)) .idle).phase = .idle ∧
    lands (.write (.nv 3)) [] (hosted (.write (.nv 3)) .idle) := ⟨rfl, lands_hosted _ _⟩

theorem witness_HostWrites_element : (hosted (.write (.value 2039 7)) .idle).phase = .idle ∧
    lands (.write (.value 2039 7)) [] (hosted (.write (.value 2039 7)) .idle) ∧
    2039 < (hosted (.write (.value 2039 7)) .idle).cfg.nvMax := ⟨rfl, lands_hosted _ _, by decide⟩

/-- OPEN or CLOSE waiting for the transport, which has answered. -/
def handling (p : Pending) (up : Bool) : State :=
  { State.reset with phase := .done, pending := p, xopen := up, lineAns := [.ok] }

theorem witness_HandleBit_opening : ∃ t, step (handling .opening false) = .next t ∧ t.xopen = true ∧
    ∀ rest, ¬ lands .rst rest (handling .opening false) := ⟨_, rfl, rfl, no_event rfl _⟩

theorem witness_HandleBit_closing : ∃ t, step (handling .closing true) = .next t ∧ t.xopen = false ∧
    ∀ rest, ¬ lands .rst rest (handling .closing true) := ⟨_, rfl, rfl, no_event rfl _⟩

theorem witness_OneCall_send : ∃ t, step resOut = .next t ∧
    t.calls = resOut.calls ++ [.send [0x01, 0x07, 0x41, 0xE2]] := ⟨_, rfl, rfl⟩

theorem witness_OneCall_read : ∃ t,
    step { resOut with phase := .receive, readAns := [.bytes [0x01]] } = .next t ∧ t.calls = [.read] :=
  ⟨_, rfl, rfl⟩

theorem witness_OneCall_open : ∃ t, step (handling .opening false) = .next t ∧ t.calls = [.openLine] :=
  ⟨_, rfl, rfl⟩

theorem witness_OneCall_close : ∃ t, step (handling .closing true) = .next t ∧ t.calls = [.closeLine] :=
  ⟨_, rfl, rfl⟩

theorem witness_ParametersNeverChange : ∃ t, step (hosted .rst .validate) = .next t := ⟨_, rfl⟩

theorem witness_FunctionByte_same : catalogued 0x11 = true ∧ (0x11 : Byte) = 0x11 := by decide
theorem witness_FunctionByte_exception :
    catalogued 0x11 = true ∧ (0x91 : Byte).toNat = (0x11 : Byte).toNat + 0x80 := by decide
theorem witness_FunctionByte_other :
    catalogued 0x11 = true ∧ (0x90 : Byte) ≠ 0x11 ∧ (0x90 : Byte).toNat ≠ (0x11 : Byte).toNat + 0x80 := by
  decide

/-- The longest registers request that fits the default TXB is read back. -/
theorem witness_RequestFramesReadBack :
    (requestFrame .packed (.wmr 1 0 123 (List.replicate 123 0))).isSome = true ∧
    wellFormed .packed (.wmr 1 0 123 (List.replicate 123 0)) = true := by decide +kernel

theorem witness_BuiltFrameIsTheCommand : (requestFn (.res 1)).isSome = true ∧
    (encoding .packed 256).phase ≠ .send ∧
    ∃ t, exec (.res 1) (encoding .packed 256) = .next t ∧ t.phase = .send :=
  ⟨rfl, by decide, _, rfl, rfl⟩

/-- GCEC with the registers it reads written, the exchange just started. -/
def gcecStarted : State := { commanded 0x0B 0 0 [] with phase := .encode, reqFn := 0x0B }

theorem witness_StepRuns_command : gcecStarted.phase = .encode ∧ quiet gcecStarted = true ∧
    ∃ w, commandOperands gcecStarted = .ok w ∧ decode w = .ok (.gcec 1) :=
  ⟨rfl, rfl, _, rfl, rfl⟩

theorem witness_StepRuns_response :
    (answered 0x0B false [1, 0x0B, 0, 0]).phase = .validate ∧
    quiet (answered 0x0B false [1, 0x0B, 0, 0]) = true ∧
    4 ≤ (answered 0x0B false [1, 0x0B, 0, 0]).rxLen ∧
    memReadByte .rxb 1 (answered 0x0B false [1, 0x0B, 0, 0]) = .ok 0x0B ∧
    decode (.response (answered 0x0B false [1, 0x0B, 0, 0]).reqFn 0x0B) = .ok .gcecResponse :=
  ⟨rfl, rfl, by decide, rfl, rfl⟩

theorem witness_StepRuns_ports :
    lands (.crcPort true true 5) [] (hosted (.crcPort true true 5) .idle) ∧
    decode (.crc true true 5) = .ok .crcInit ∧
    lands (.xltPort 255) [] (hosted (.xltPort 255) .send) ∧ decode (.xlt 255) = .ok (.xltLookup 255) ∧
    lands (.command 2) [] (hosted (.command 2) .idle) ∧ decode (.cmd 2) = .ok .openLine ∧
    lands (.command 3) [] (hosted (.command 3) .idle) ∧ decode (.cmd 3) = .ok .closeLine :=
  ⟨lands_hosted _ _, rfl, lands_hosted _ _, rfl, lands_hosted _ _, rfl, lands_hosted _ _, rfl⟩

/-- The smallest TXB that R9 admits holds every frame of 8 bytes. -/
theorem witness_ReadRequests : 8 ≤ (encoding .packed 8).cfg.txBufMax := by decide

theorem witness_SingleWriteRequests : 8 ≤ (encoding .literal 8).cfg.txBufMax := by decide

theorem witness_NoPayloadRequests : 4 ≤ (encoding .packed 4).cfg.txBufMax := by decide

theorem witness_Diag_fits : 6 + 2 * [(1 : Word), 2].length ≤ (encoding .packed 10).cfg.txBufMax ∧
    [(1 : Word), 2].length ≤ (encoding .packed 10).cfg.nvMax := by decide

theorem witness_Diag_overflow : (encoding .packed 9).cfg.txBufMax < 6 + 2 * [(1 : Word), 2].length := by decide

/-- More words than V has elements. -/
theorem witness_Diag_elements :
    { Config.defaults with nvMax := 1 }.nvMax < [(1 : Word), 2].length := by decide

theorem witness_Diag_fits_nothing : 6 + 2 * ([] : List Word).length ≤ (encoding .packed 6).cfg.txBufMax ∧
    ([] : List Word).length ≤ (encoding .packed 6).cfg.nvMax := by decide

theorem witness_Wmr_count : [(5 : Word)].length ≠ (0 : Word).toNat := by decide

theorem witness_Wmr_byteCount :
    (List.replicate 128 (0 : Word)).length = (128 : Word).toNat ∧ 255 < 2 * (128 : Word).toNat := by
  decide +kernel

theorem witness_Wmr_buffer :
    (List.replicate 127 (0 : Word)).length = (127 : Word).toNat ∧ 2 * (127 : Word).toNat ≤ 255 ∧
    (encoding .packed 262).cfg.txBufMax < 9 + 2 * (127 : Word).toNat := by
  decide +kernel

theorem witness_Wmr_fits :
    (List.replicate 127 (0 : Word)).length = (127 : Word).toNat ∧ 2 * (127 : Word).toNat ≤ 255 ∧
    9 + 2 * (127 : Word).toNat ≤ (encoding .packed 263).cfg.txBufMax ∧
    (List.replicate 127 (0 : Word)).length ≤ (encoding .packed 263).cfg.nvMax := by
  decide +kernel

/-- The range of WMC's coils in packed mode, and the number of its data bytes. -/
theorem witness_Wmc_setting : ∃ inRange : Prop, ∃ m : Nat,
    (inRange ↔ ∀ c ∈ [(1 : Word), 0],
      c.toNat < 256 ∧ ((encoding .packed 9).cfg.wmcMode = .packed → c = 0 ∨ c = 1)) ∧
    (m = if (encoding .packed 9).cfg.wmcMode = .packed then ((2 : Word).toNat + 7) / 8 else (2 : Word).toNat) ∧
    [(1 : Word), 0].length = (2 : Word).toNat ∧ inRange ∧ ((2 : Word).toNat + 7) / 8 ≤ 255 ∧
    (encoding .packed 9).cfg.txBufMax < 9 + m :=
  ⟨_, _, Iff.rfl, rfl, rfl, by simp, by decide, by decide⟩

theorem witness_Wmc_count : [(1 : Word), 0, 7].length ≠ (2 : Word).toNat := by decide

theorem witness_Wmc_coil_packed : [(1 : Word), 2].length = (2 : Word).toNat ∧
    ¬ ∀ c ∈ [(1 : Word), 2],
      c.toNat < 256 ∧ ((encoding .packed 9).cfg.wmcMode = .packed → c = 0 ∨ c = 1) :=
  ⟨rfl, fun h => absurd ((h 2 (by simp)).2 rfl) (by decide)⟩

theorem witness_Wmc_coil_literal : [(0xFF : Word), 0x100].length = (2 : Word).toNat ∧
    ¬ ∀ c ∈ [(0xFF : Word), 0x100],
      c.toNat < 256 ∧ ((encoding .literal 9).cfg.wmcMode = .packed → c = 0 ∨ c = 1) :=
  ⟨rfl, fun h => absurd (h 0x100 (by simp)).1 (by decide)⟩

theorem witness_Wmc_byteCount : (List.replicate 2041 (0 : Word)).length = (2041 : Word).toNat ∧
    (∀ c ∈ List.replicate 2041 (0 : Word),
      c.toNat < 256 ∧ ((encoding .packed 9).cfg.wmcMode = .packed → c = 0 ∨ c = 1)) ∧
    255 < ((2041 : Word).toNat + 7) / 8 := by
  refine ⟨List.length_replicate, fun c hc => ?_, by decide⟩
  rw [List.eq_of_mem_replicate hc]
  exact ⟨by decide, fun _ => .inl rfl⟩

theorem witness_WmcLiteral : (encoding .literal 12).cfg.wmcMode = .literal ∧
    [(1 : Word), 0, 0xFF].length = (3 : Word).toNat ∧ (∀ c ∈ [(1 : Word), 0, 0xFF], c.toNat < 256) ∧
    ((3 : Word).toNat + 7) / 8 ≤ 255 ∧ 9 + (3 : Word).toNat ≤ (encoding .literal 12).cfg.txBufMax ∧
    [(1 : Word), 0, 0xFF].length ≤ (encoding .literal 12).cfg.nvMax :=
  ⟨rfl, rfl, by simp, by decide, by decide, by decide⟩

theorem witness_WmcPacked : (encoding .packed 264).cfg.wmcMode = .packed ∧
    (List.replicate 2040 (1 : Word)).length = (2040 : Word).toNat ∧
    (∀ c ∈ List.replicate 2040 (1 : Word), c = 0 ∨ c = 1) ∧
    ((2040 : Word).toNat + 7) / 8 ≤ 255 ∧
    9 + ((2040 : Word).toNat + 7) / 8 ≤ (encoding .packed 264).cfg.txBufMax ∧
    (List.replicate 2040 (1 : Word)).length ≤ (encoding .packed 264).cfg.nvMax :=
  ⟨rfl, List.length_replicate, fun _ hc => .inr (List.eq_of_mem_replicate hc), by decide, by decide,
    List.length_replicate.le⟩

theorem witness_ArgCount : [(1 : Word)].length ≠ (2 : Word).toNat ∧ quiet (encoding .packed 256) = true := by
  decide

/-- A start just made: the invariant holds in ENCODE with the lengths cleared. -/
def wmrStarted : State := { State.reset with
  phase := .encode, stn := some 1, fn := some 0x10, a := some 0, b := some 2, raw := some false
  nv := some 1, v := [(0, 7)], reqFn := 0x10 }

theorem inv_wmrStarted : Inv wmrStarted where
  txbForm := by decide
  rxbForm := by decide
  vForm := by decide
  txbBound _ _ := rfl
  rxbBound _ _ := rfl
  vBound k hk := if_neg (by have hk : 2040 ≤ k := hk; omega)
  txHeld := ⟨by decide, by decide⟩
  rxHeld := ⟨by decide, by decide⟩
  pendingInDone := by decide
  validInIdle := by decide
  capturesValid := by decide
  responseWithRequest := by decide
  txEmpty _ := rfl
  rxEmpty _ := rfl
  refusedMarked h := by rcases h with ⟨_, h⟩ | ⟨h, _⟩ <;> cases h
  latchFn _ f h := by cases h; rfl
  latchRaw _ x h := by cases h; rfl
  latchCatalogued h := by cases h
  frameOut h := by cases h
  resultIsWindow res h := by cases h

theorem witness_ArgCount_length : Inv wmrStarted ∧ wmrStarted.phase = .encode ∧ quiet wmrStarted = true ∧
    [(7 : Word)].length ≠ (2 : Word).toNat := ⟨inv_wmrStarted, rfl, rfl, by decide⟩

/-- An ArgCount waiting in DONE. -/
def argCountWaiting : State := { wmrStarted with phase := .done, pending := .ending (.fail .argCount) }

theorem inv_argCountWaiting : Inv argCountWaiting :=
  { inv_wmrStarted with
    pendingInDone := by decide
    validInIdle := by decide
    refusedMarked := fun h => by rcases h with ⟨_, h⟩ | ⟨h, _⟩ <;> cases h
    latchFn := fun h => by cases h
    latchRaw := fun h => by cases h
    rxEmpty := fun _ => rfl
    txEmpty := fun _ => rfl
    latchCatalogued := fun h => by cases h
    frameOut := fun h => by cases h
    resultIsWindow := fun res h => by cases h }

theorem witness_Done_argCount : Inv argCountWaiting ∧ argCountWaiting.phase = .done ∧
    quiet argCountWaiting = true ∧ argCountWaiting.pending = .ending (.fail .argCount) :=
  ⟨inv_argCountWaiting, rfl, rfl, rfl⟩

theorem witness_ArgCount_diag : (encoding .packed 256).pending = .nothing ∧
    ∃ t, exec (.diag 1 0 []) (encoding .packed 256) = .next t := ⟨rfl, _, rfl⟩

theorem witness_Checksum_wrong : decodeSuccess 0x03 = .ok .rhrResponse ∧
    rxFrame (answered 0x03 false [0x01, 0x03, 0x00, 0x00]) = .ok [0x01, 0x03, 0x00, 0x00] ∧
    4 ≤ [(0x01 : Byte), 0x03, 0x00, 0x00].length ∧
    checksumOk [0x01, 0x03, 0x00, 0x00] = false :=
  ⟨rfl, rxFrame_answered _ _ _, by decide, by decide +kernel⟩

theorem witness_Checksum_raw : decodeSuccess 0x03 = .ok .rhrResponse ∧
    rxFrame (answered 0x03 true [0x01, 0x03, 0x40, 0x21]) = .ok [0x01, 0x03, 0x40, 0x21] ∧
    checksumOk [0x01, 0x03, 0x40, 0x21] = true ∧
    (answered 0x03 true [0x01, 0x03, 0x40, 0x21]).reqRaw = true :=
  ⟨rfl, rxFrame_answered _ _ _, by decide +kernel, rfl⟩

theorem witness_Bits : ([0xCD, 0x6B, 0x05] : List Byte).length = (3 : Byte).toNat ∧
    rxFrame (answered 0x01 false (withCrc ([1, 0x01, 3] ++ [0xCD, 0x6B, 0x05]))) =
      .ok (withCrc ([1, 0x01, 3] ++ [0xCD, 0x6B, 0x05])) := ⟨rfl, rxFrame_answered _ _ _⟩

/-- No octet at all: the shortest bits response. -/
theorem witness_Bits_empty : ([] : List Byte).length = (0 : Byte).toNat ∧
    rxFrame (answered 0x02 false (withCrc ([1, 0x02, 0] ++ []))) = .ok (withCrc ([1, 0x02, 0] ++ [])) :=
  ⟨rfl, rxFrame_answered _ _ _⟩

/-- A valid frame with a zero byte after it. -/
def trailing : List Byte := [0x01, 0x03, 0x04, 0x00, 0x0A, 0x00, 0x14, 0xDA, 0x3E, 0x00]

theorem witness_Mismatch_trailing : rxFrame (answered 0x03 false trailing) = .ok trailing ∧
    4 ≤ trailing.length ∧ checksumOk trailing = true ∧ (answered 0x03 false trailing).reqRaw = false ∧
    trailing.length ≠ 5 + (trailing.getD 2 0).toNat ∧ trailing.length ≠ 8 ∧ trailing.length ≠ 5 ∧
    ¬ 11 ≤ trailing.length :=
  ⟨rxFrame_answered _ _ _, by decide, by decide +kernel, rfl, by decide, by decide, by decide, by decide⟩

/-- Four bytes with a good checksum: shorter than any structured response. -/
theorem witness_Mismatch_four : rxFrame (answered 0x01 false (withCrc [1, 1])) = .ok (withCrc [1, 1]) ∧
    4 ≤ (withCrc [1, 1]).length ∧ checksumOk (withCrc [1, 1]) = true ∧ ¬ 5 ≤ (withCrc [1, 1]).length :=
  ⟨rxFrame_answered _ _ _, by decide, by decide +kernel, by decide⟩

/-- An odd byte count with the right length. -/
theorem witness_Regs_odd :
    rxFrame (answered 0x03 false [0x01, 0x03, 0x03, 0x00, 0x01, 0x02, 0xC5, 0xDF]) =
      .ok [0x01, 0x03, 0x03, 0x00, 0x01, 0x02, 0xC5, 0xDF] ∧
    checksumOk [0x01, 0x03, 0x03, 0x00, 0x01, 0x02, 0xC5, 0xDF] = true ∧
    ([0x01, 0x03, 0x03, 0x00, 0x01, 0x02, 0xC5, 0xDF] : List Byte).length = 5 + (3 : Byte).toNat ∧
    ¬ (3 : Byte).toNat % 2 = 0 :=
  ⟨rxFrame_answered _ _ _, by decide +kernel, by decide, by decide⟩

theorem witness_Regs : 2 * ([0x1234, 0xFFFF] : List Word).length = (4 : Byte).toNat ∧
    rxFrame (answered 0x03 false (withCrc ([1, 0x03, 4] ++ be16s [0x1234, 0xFFFF]))) =
      .ok (withCrc ([1, 0x03, 4] ++ be16s [0x1234, 0xFFFF])) := ⟨rfl, rxFrame_answered _ _ _⟩

theorem witness_Echo :
    rxFrame (answered 0x06 false (withCrc ([1, 0x06] ++ be16 0x0010 ++ be16 0xABCD))) =
      .ok (withCrc ([1, 0x06] ++ be16 0x0010 ++ be16 0xABCD)) ∧
    (answered 0x06 false (withCrc ([1, 0x06] ++ be16 0x0010 ++ be16 0xABCD))).reqRaw = false :=
  ⟨rxFrame_answered _ _ _, rfl⟩

theorem witness_Status :
    rxFrame (answered 0x07 false (withCrc [1, 0x07, 0x6D])) = .ok (withCrc [1, 0x07, 0x6D]) :=
  rxFrame_answered _ _ _

theorem witness_Counter :
    rxFrame (answered 0x0B false (withCrc ([1, 0x0B] ++ be16 0xFFFF ++ be16 0x0108))) =
      .ok (withCrc ([1, 0x0B] ++ be16 0xFFFF ++ be16 0x0108)) := rxFrame_answered _ _ _

/-- A log without events: the byte count at its least. -/
theorem witness_Log : ([] : List Byte).length + 6 = (6 : Byte).toNat ∧
    rxFrame (answered 0x0C false (withCrc ([1, 0x0C, 6] ++ be16 0 ++ be16 1 ++ be16 2 ++ []))) =
      .ok (withCrc ([1, 0x0C, 6] ++ be16 0 ++ be16 1 ++ be16 2 ++ [])) := ⟨rfl, rxFrame_answered _ _ _⟩

/-- A byte count under 6 with the right length. -/
theorem witness_Log_short :
    rxFrame (answered 0x0C false [0x01, 0x0C, 0x05, 0x00, 0x00, 0x00, 0x01, 0x00, 0x4C, 0x02]) =
      .ok [0x01, 0x0C, 0x05, 0x00, 0x00, 0x00, 0x01, 0x00, 0x4C, 0x02] ∧
    checksumOk [0x01, 0x0C, 0x05, 0x00, 0x00, 0x00, 0x01, 0x00, 0x4C, 0x02] = true ∧
    ¬ 11 ≤ ([0x01, 0x0C, 0x05, 0x00, 0x00, 0x00, 0x01, 0x00, 0x4C, 0x02] : List Byte).length :=
  ⟨rxFrame_answered _ _ _, by decide +kernel, by decide⟩

/-- The shortest raw response. -/
theorem witness_Raw : rxFrame (answered 0x11 false [0x01, 0x11, 0xC0, 0x2C]) = .ok [0x01, 0x11, 0xC0, 0x2C] ∧
    4 ≤ ([0x01, 0x11, 0xC0, 0x2C] : List Byte).length ∧ checksumOk [0x01, 0x11, 0xC0, 0x2C] = true :=
  ⟨rxFrame_answered _ _ _, by decide, by decide +kernel⟩

/-- An exception response of four bytes. -/
theorem witness_Exception : rxFrame (answered 0x03 false [0x01, 0x83, 0x41, 0x81]) = .ok [0x01, 0x83, 0x41, 0x81] ∧
    4 ≤ ([0x01, 0x83, 0x41, 0x81] : List Byte).length ∧
    quiet (answered 0x03 false [0x01, 0x83, 0x41, 0x81]) = true :=
  ⟨rxFrame_answered _ _ _, by decide, rfl⟩

theorem witness_Short : (answered 0x03 false [0x01, 0x83, 0x02]).phase = .validate ∧
    quiet (answered 0x03 false [0x01, 0x83, 0x02]) = true ∧
    (answered 0x03 false [0x01, 0x83, 0x02]).rxLen < 4 := ⟨rfl, rfl, by decide⟩

theorem witness_FirstByte_exception :
    (answered 0x03 false [0x01, 0x83, 0x41, 0x81]).phase = .validate ∧
    rxFrame (answered 0x03 false [0x01, 0x83, 0x41, 0x81]) = .ok [0x01, 0x83, 0x41, 0x81] ∧
    (0x83 : Byte) ≠ 0x03 ∧ (0x83 : Byte).toNat = (0x03 : Byte).toNat + 0x80 :=
  ⟨rfl, rxFrame_answered _ _ _, by decide, by decide⟩

theorem witness_FirstByte_other :
    (answered 0x03 false [0x01, 0x84, 0x02, 0xC2]).phase = .validate ∧
    rxFrame (answered 0x03 false [0x01, 0x84, 0x02, 0xC2]) = .ok [0x01, 0x84, 0x02, 0xC2] ∧
    (0x84 : Byte) ≠ 0x03 ∧ (0x84 : Byte).toNat ≠ (0x03 : Byte).toNat + 0x80 :=
  ⟨rfl, rxFrame_answered _ _ _, by decide, by decide⟩

theorem witness_ValidateStep : (answered 0x03 false trailing).phase = .validate ∧
    quiet (answered 0x03 false trailing) = true ∧ rxFrame (answered 0x03 false trailing) = .ok trailing ∧
    catalogued (answered 0x03 false trailing).reqFn = true := ⟨rfl, rfl, rxFrame_answered _ _ _, rfl⟩

/-- The response to RIR that carries two registers. -/
def twoRegisters : Result := .regs 1 0x04 4 [0x000A, 0xFFFF]

theorem witness_EveryResult : (answered 0x04 false twoRegisters.frame).phase = .validate ∧
    quiet (answered 0x04 false twoRegisters.frame) = true ∧
    (answered 0x04 false twoRegisters.frame).reqRaw = false ∧
    Result.fits twoRegisters (answered 0x04 false twoRegisters.frame).reqFn = true ∧
    rxFrame (answered 0x04 false twoRegisters.frame) = .ok twoRegisters.frame :=
  ⟨rfl, rfl, rfl, by decide, rxFrame_answered _ _ _⟩

theorem witness_EveryResult_fits : Result.fits (.bits 1 0x02 1 [0xAC]) 0x02 = true ∧
    Result.fits (.regs 1 0x04 4 [1, 2]) 0x04 = true ∧ Result.fits (.echo 1 0x05 1 2) 0x05 = true ∧
    Result.fits (.status 1 0x07 3) 0x07 = true ∧ Result.fits (.counter 1 0x0B 1 2) 0x0B = true ∧
    Result.fits (.log 1 0x0C 6 1 2 3 []) 0x0C = true := by decide

theorem witness_OutcomeDepends : ∃ s s' : State, s ≠ s' ∧ s.phase = .validate ∧ s'.phase = .validate ∧
    quiet s = true ∧ quiet s' = true ∧ rxFrame s = .ok [0x01, 0x83, 0x41, 0x81] ∧
    rxFrame s' = .ok [0x01, 0x83, 0x41, 0x81] ∧ s'.reqFn = s.reqFn ∧ s'.reqRaw = s.reqRaw ∧
    ∃ t, step s = .next t :=
  ⟨answered 0x03 false [0x01, 0x83, 0x41, 0x81],
    { answered 0x03 false [0x01, 0x83, 0x41, 0x81] with stn := some 9, xopen := true },
    by decide, rfl, rfl, rfl, rfl, rxFrame_answered _ _ _, rxFrame_filled _ rfl rfl, rfl, rfl, _, rfl⟩

theorem witness_Readable_result : Inv statusReady ∧ statusReady.phase = .done ∧ quiet statusReady = true ∧
    statusReady.pending = .ending (.ok (.status 1 0x07 0x6D)) ∧ ∃ t, step statusReady = .next t :=
  ⟨inv_statusReady, rfl, rfl, rfl, _, rfl⟩

theorem witness_Readable_failure : deviceFailing.phase = .done ∧ quiet deviceFailing = true ∧
    deviceFailing.pending = .ending (.fail (.deviceException 2)) ∧ txFrame deviceFailing = .ok [] ∧
    rxFrame deviceFailing = .ok [0x01, 0x83, 0x02, 0xC0, 0xF1] ∧ ∃ t, step deviceFailing = .next t :=
  ⟨rfl, rfl, rfl, rfl, rxFrame_filled _ rfl rfl, _, rfl⟩

/-- The host uses the XLT port while an outcome is there to read. -/
def outcomeReady : State := { State.reset with resValid := true, resKind := .ok, hostIn := [.now (.xltPort 3)] }

theorem witness_Readable_idle : outcomeReady.phase = .idle ∧ (∃ t, step outcomeReady = .next t) ∧
    (∀ rest, ¬ lands .rst rest outcomeReady) ∧ (∀ kind rest, kind ≠ 0 → ¬ lands (.command kind) rest outcomeReady) :=
  ⟨rfl, ⟨_, rfl⟩, fun rest => by simp [lands, outcomeReady], fun kind rest _ => by simp [lands, outcomeReady]⟩

theorem witness_CrcPort_idle : State.reset.phase = .idle := rfl
theorem witness_CrcPort_busy : resOut.phase ≠ .idle := by decide
theorem witness_CrcIteration : (1 : Word).getLsbD 0 = true ∧ (2 : Word).getLsbD 0 = false := by decide

/-- One byte through the CRC port. -/
theorem witness_CrcPortComputesCrc16 : ∃ (s : State) (msg : List Byte), msg ≠ [] ∧ s.phase = .idle ∧
    s.hostIn = .now (.crcPort true false 0) :: (msg.map fun b => HostInput.now (.crcPort false true b)) ++ [] :=
  ⟨{ State.reset with hostIn := [.now (.crcPort true false 0), .now (.crcPort false true 0x41)] }, [0x41],
    by decide, rfl, rfl⟩

theorem witness_Start : (hosted (.command 1) .idle).phase = .idle ∧
    lands (.command 1) [] (hosted (.command 1) .idle) := ⟨rfl, lands_hosted _ _⟩

theorem witness_Start_frozen : (hosted (.write (.fn 1)) .encode).phase ≠ .idle ∧
    (∀ rest, ¬ lands .rst rest (hosted (.write (.fn 1)) .encode)) ∧
    ∃ t, step (hosted (.write (.fn 1)) .encode) = .next t :=
  ⟨by decide, fun rest => by simp [lands, hosted], _, rfl⟩

/-- A started exchange with this function code and nothing else written. -/
def bare (fn : Byte) : State := { State.reset with phase := .encode, fn := some fn }

theorem witness_Encode_unknown : (bare 0x09).phase = .encode ∧ quiet (bare 0x09) = true ∧
    (bare 0x09).fn = some 0x09 ∧
    (0x09 : Byte).toNat ∉ [1, 2, 3, 4, 5, 6, 7, 8, 11, 12, 15, 16, 17] := ⟨rfl, rfl, rfl, by decide⟩

theorem witness_Encode_unwritten : (bare 0x11).phase = .encode ∧ quiet (bare 0x11) = true ∧
    (bare 0x11).fn = some 0x11 ∧
    (0x11 : Byte).toNat ∈ [1, 2, 3, 4, 5, 6, 7, 8, 11, 12, 15, 16, 17] ∧ (bare 0x11).stn = none :=
  ⟨rfl, rfl, rfl, by decide, rfl⟩

/-- WMR with the last of its elements never written. -/
theorem witness_Encode_element :
    (commanded 0x10 0 2 [7]).fn = some 0x10 ∧ { commanded 0x10 0 2 [7] with nv := some 2 }.nv = some 2 ∧
    1 < { commanded 0x10 0 2 [7] with nv := some 2 }.cfg.nvMax ∧
    Sparse.read (commanded 0x10 0 2 [7]).v 1 = none := ⟨rfl, rfl, by decide, rfl⟩

theorem witness_Operands_values : ∃ s : State, s.phase = .encode ∧ quiet s = true ∧ s.stn = some 1 ∧
    s.raw = some false ∧ s.a = some 0 ∧ s.b = some 2 ∧ s.nv = some ([7, 8] : List Word).length ∧
    ([7, 8] : List Word).length ≤ s.cfg.nvMax ∧
    (∀ k, k < ([7, 8] : List Word).length → Sparse.read s.v k = ([7, 8] : List Word)[k]?) ∧
    s.fn = some 0x10 :=
  ⟨{ commanded 0x10 0 2 [7, 8] with phase := .encode }, rfl, rfl, rfl, rfl, rfl, rfl, rfl, by decide, by decide, rfl⟩

theorem witness_Operands_none : gcecStarted.phase = .encode ∧ quiet gcecStarted = true ∧
    gcecStarted.stn = some 1 ∧ gcecStarted.raw = some false ∧ gcecStarted.fn = some 0x0B :=
  ⟨rfl, rfl, rfl, rfl, rfl⟩

theorem witness_Send : resOut.phase = .send ∧ quiet resOut = true ∧
    txFrame resOut = .ok [0x01, 0x07, 0x41, 0xE2] ∧ resOut.lineAns = .ok :: [] :=
  ⟨rfl, rfl, txFrame_filled _ rfl rfl, rfl⟩

theorem witness_Send_error :
    txFrame { resOut with lineAns := [.err .first] } = .ok [0x01, 0x07, 0x41, 0xE2] ∧
    { resOut with lineAns := [.err .first] }.lineAns = .err .first :: [] := ⟨txFrame_filled _ rfl rfl, rfl⟩

theorem witness_Send_waiting : txFrame { resOut with lineAns := [] } = .ok [0x01, 0x07, 0x41, 0xE2] ∧
    { resOut with lineAns := [] }.lineAns = [] := ⟨txFrame_filled _ rfl rfl, rfl⟩

/-- A block waiting in RECEIVE with room for five bytes, the least R9 admits. -/
def receiving (ans : List ReadAnswer) : State :=
  { resOut with phase := .receive, readAns := ans, cfg := { Config.defaults with rxBufMax := 5 } }

theorem witness_Receive_fits : (receiving [.bytes [1, 7, 0x6D, 0xE3, 0xDD]]).phase = .receive ∧
    quiet (receiving [.bytes [1, 7, 0x6D, 0xE3, 0xDD]]) = true ∧
    ([1, 7, 0x6D, 0xE3, 0xDD] : List Byte).length ≤
      (receiving [.bytes [1, 7, 0x6D, 0xE3, 0xDD]]).cfg.rxBufMax := ⟨rfl, rfl, by decide⟩

theorem witness_Receive_overflow : (receiving [.bytes [1, 2, 3, 4, 5, 6]]).phase = .receive ∧
    (receiving [.bytes [1, 2, 3, 4, 5, 6]]).cfg.rxBufMax < ([1, 2, 3, 4, 5, 6] : List Byte).length :=
  ⟨rfl, by decide⟩

theorem witness_Receive_error : (receiving [.err .first]).readAns = .err .first :: [] := rfl
theorem witness_Receive_waiting : (receiving []).readAns = [] := rfl

/-- A block in DONE with this outcome to write. -/
def finishing (e : Ending) : State := { State.reset with phase := .done, pending := .ending e }

/-- Every row of R218 is met by a block in DONE. -/
theorem witness_Done : ∀ e ∈ [.ok (.raw [1]), .fail .argCount, .fail .tooShort, .fail .checkFails,
      .fail .illegalErrorCode, .fail (.deviceException 0xFF), .fail (.transportFailure .first),
      .refused .layoutMismatch],
    (finishing e).phase = .done ∧ quiet (finishing e) = true ∧ (finishing e).pending = .ending e :=
  fun _ _ => ⟨rfl, rfl, rfl⟩

theorem witness_Open_ok : { State.reset with lineAns := [.ok] }.phase = .idle ∧
    quiet { State.reset with lineAns := [.ok] } = true ∧
    { State.reset with lineAns := [.ok] }.lineAns = .ok :: [] := ⟨rfl, rfl, rfl⟩

theorem witness_Open_error : { State.reset with lineAns := [.err .first] }.phase = .idle ∧
    quiet { State.reset with lineAns := [.err .first] } = true ∧
    { State.reset with lineAns := [.err .first] }.lineAns = .err .first :: [] := ⟨rfl, rfl, rfl⟩

theorem witness_Open_waiting : State.reset.phase = .idle ∧ quiet State.reset = true ∧
    State.reset.lineAns = [] := ⟨rfl, rfl, rfl⟩

theorem witness_ExchangeRefines : ∃ (s : State) (w : PortWord), s.phase = .idle ∧
    s.hostIn = .now (.command 1) :: [] ∧ quiet { s with hostIn := [] } = true ∧
    commandOperands s = .ok w ∧ decode w = .ok (.wmr 1 0x20 2 [1, 2]) ∧ s.raw = some false ∧
    s.lineAns = .ok :: [] ∧ s.readAns = .bytes [0x01, 0x10, 0x00] :: [] :=
  ⟨{ commanded 0x10 0x20 2 [1, 2] with
      hostIn := [.now (.command 1)], lineAns := [.ok], readAns := [.bytes [0x01, 0x10, 0x00]] },
    _, rfl, rfl, rfl, rfl, rfl, rfl, rfl, rfl⟩

/-- A run that meets its first refusal, and one that carries it on past `rst`. -/
theorem witness_Refusal_met : ∃ t, step (bare 0x09) = .next t ∧ (bare 0x09).refusal = none ∧
    (bare 0x09).phase ≠ .done ∧ t.phase = .done ∧ t.pending = .ending (.refused .unknownFunction) ∧
    t.refusal = some .unknownFunction := ⟨_, rfl, rfl, by decide, rfl, rfl, rfl⟩

theorem witness_Refusal_kept : ∃ t,
    steps 1 { hosted .rst .receive with refusal := some .layoutMismatch } = .next t ∧
    t.refusal = some .layoutMismatch := ⟨_, rfl, rfl⟩

theorem witness_Refusal_none : ∃ t, steps 1 resOut = .next t ∧ notRefused t = true := ⟨_, rfl, rfl⟩

theorem witness_ErrorValues : (∀ rest, ¬ lands .rst rest { resOut with lineAns := [.err .first] }) ∧
    (id TransportError.first : TransportError) = TransportError.first := ⟨no_event rfl _, rfl⟩

theorem witness_Xerr_changes (e : TransportError) : ∃ t,
    step { handling .opening false with lineAns := [.err e] } = .next t ∧ t.xerr = e := ⟨_, rfl, rfl⟩

theorem witness_Xerr_step : (∃ t, step resOut = .next t) ∧ ∀ rest, ¬ lands .rst rest resOut :=
  ⟨⟨_, rfl⟩, no_event rfl _⟩

end Sys2Proof.Tests
end

section
/-! PROOFS. Whole-machine rules of 00_scope.md: the parameters of R9 are constants of the run, and a
refused outcome marks the run for good (R16, R243). -/

namespace Sys2Proof.Machine

/-! ## What every step keeps: parameters and mark -/

/-- From `s` to `t` no outcome was met: the mark is as it was, and if `t` is in DONE then `s` was too, or
what waits in `t` is no outcome. -/
def NoOutcomeMet (s t : State) : Prop :=
  t.refusal = s.refusal ∧ (t.phase = .done → s.phase = .done ∨ ∀ e, t.pending ≠ .ending e)

/-- From `s`, in a phase of an exchange, to `t` this outcome was met: it waits in DONE, and a refused one
has marked the run (R16). -/
def OutcomeMet (e : Ending) (s t : State) : Prop :=
  s.phase ≠ .idle ∧ s.phase ≠ .done ∧ t.phase = .done ∧ t.pending = .ending e ∧
    t.refusal = s.refusal.or e.reason

/-- A register write touches the command registers only (R21). -/
theorem putReg_frame {w : RegWrite} {s t : State} (h : putReg w s = .next t) :
    t = { s with stn := t.stn, fn := t.fn, a := t.a, b := t.b, raw := t.raw, nv := t.nv, v := t.v } := by
  rcases putReg_cases h with ⟨_, _, rfl⟩ | ⟨_, _, rfl⟩ | ⟨_, _, rfl⟩ | ⟨_, _, rfl⟩ | ⟨_, _, rfl⟩ |
    ⟨_, _, rfl⟩ | ⟨_, _, _, _, rfl⟩ <;> rfl

/-- A host event keeps the parameters and meets no outcome: it leads into DONE only as OPEN or CLOSE
does. -/
theorem hostAction_keeps {e : HostEvent} {s t : State} (h : (hostAction e s).result = .next t) :
    t.cfg = s.cfg ∧ NoOutcomeMet s t := by
  rcases hostAction_cases h with ⟨w, -, ⟨-, rfl⟩ | ⟨-, hw⟩⟩ | ⟨-, rfl⟩ |
    ⟨_, _, _, -, rfl | ⟨-, _, rfl⟩⟩ | ⟨_, -, rfl⟩ |
    ⟨_, -, ⟨-, rfl⟩ | ⟨-, -, rfl⟩ | ⟨p, hp, -, rfl⟩⟩
  · exact ⟨rfl, rfl, .inl⟩
  · rw [putReg_frame hw]
    exact ⟨rfl, rfl, .inl⟩
  · exact ⟨rfl, rfl, nofun⟩
  · exact ⟨rfl, rfl, .inl⟩
  · exact ⟨rfl, rfl, .inl⟩
  · exact ⟨rfl, rfl, .inl⟩
  · exact ⟨rfl, rfl, .inl⟩
  · exact ⟨rfl, rfl, nofun⟩
  · refine ⟨rfl, rfl, fun _ => .inr fun e he => ?_⟩
    rcases hp with ⟨-, rfl⟩ | ⟨-, rfl⟩ <;> cases he

/-- No step changes the parameters (R9). -/
theorem step_cfg {s t : State} (h : step s = .next t) : t.cfg = s.cfg := by
  rcases step_cases h with ⟨e, rest, -, h⟩ |
    ⟨-, ⟨-, rfl⟩ | ⟨-, h⟩ | ⟨-, h⟩ | ⟨-, h⟩ | ⟨-, h⟩ | ⟨-, h⟩⟩
  · exact (hostAction_keeps h).1
  · rfl
  · rcases encodeAction_cases h with ⟨_, -, rfl⟩ | ⟨_, _, -, -, -, -, rfl⟩
    · rfl
    · rw [storeFrame_eq]
  · rcases sendStep_cases h with ⟨-, rfl⟩ | ⟨_, _, -, ⟨-, rfl⟩ | ⟨_, -, rfl⟩⟩ <;> rfl
  · rcases receiveStep_cases s with ⟨-, hr⟩ | ⟨_, _, -, hr⟩ | ⟨_, _, -, -, hr⟩ | ⟨_, _, -, -, hr⟩ <;>
      rw [hr] at h <;> cases h <;> rfl
  · obtain ⟨_, _, -, rfl⟩ := validateAction_cases h
    rfl
  · rcases doneStep_cases h with ⟨_, -, rfl⟩ |
      ⟨_, _, -, ⟨-, rfl⟩ | ⟨_, -, rfl⟩ | ⟨_, _, -, rfl⟩⟩ <;> rfl

/-- Settles O13: the parameters of R9 are constants of the run. -/
theorem parametersNeverChange : Obligations.ParametersNeverChange := fun _ _ => step_cfg

/-! ## The mark of a refused run -/

/-- `endWith` meets the outcome it is given, whatever was done to the state before it but to its mark. -/
theorem outcomeMet_endWith {e : Ending} {s u : State} (hi : s.phase ≠ .idle) (hd : s.phase ≠ .done)
    (hu : u.refusal = s.refusal) : OutcomeMet e s (endWith e u) :=
  ⟨hi, hd, rfl, rfl, by rw [endWith_refusal, hu]⟩

/-- A step meets no outcome, or it meets one, in a phase of an exchange. -/
theorem step_outcome {s t : State} (h : step s = .next t) :
    NoOutcomeMet s t ∨ ∃ e, OutcomeMet e s t := by
  rcases step_cases h with ⟨e, rest, -, h⟩ |
    ⟨-, ⟨hp, rfl⟩ | ⟨hp, h⟩ | ⟨hp, h⟩ | ⟨hp, h⟩ | ⟨hp, h⟩ | ⟨hp, h⟩⟩
  · exact .inl (hostAction_keeps h).2
  · exact .inl ⟨rfl, .inl⟩
  · rcases encodeAction_cases h with ⟨e, -, rfl⟩ | ⟨_, _, -, -, -, -, rfl⟩
    · exact .inr ⟨e, outcomeMet_endWith (by simp [hp]) (by simp [hp]) rfl⟩
    · rw [storeFrame_eq]
      exact .inl ⟨rfl, nofun⟩
  · rcases sendStep_cases h with ⟨-, rfl⟩ | ⟨_, _, -, ⟨-, rfl⟩ | ⟨_, -, rfl⟩⟩
    · exact .inl ⟨rfl, .inl⟩
    · exact .inl ⟨rfl, nofun⟩
    · exact .inr ⟨_, outcomeMet_endWith (by simp [hp]) (by simp [hp]) rfl⟩
  · rcases receiveStep_cases s with ⟨-, hr⟩ | ⟨_, _, -, hr⟩ | ⟨_, _, -, -, hr⟩ | ⟨_, _, -, -, hr⟩ <;>
      rw [hr] at h <;> cases h
    · exact .inl ⟨rfl, .inl⟩
    · exact .inr ⟨_, outcomeMet_endWith (by simp [hp]) (by simp [hp]) rfl⟩
    · exact .inr ⟨_, outcomeMet_endWith (by simp [hp]) (by simp [hp]) rfl⟩
    · exact .inl ⟨rfl, nofun⟩
  · obtain ⟨_, _, -, rfl⟩ := validateAction_cases h
    exact .inr ⟨_, outcomeMet_endWith (by simp [hp]) (by simp [hp]) rfl⟩
  · have hr : t.refusal = s.refusal := by
      rcases doneStep_cases h with ⟨_, -, rfl⟩ |
        ⟨_, _, -, ⟨-, rfl⟩ | ⟨_, -, rfl⟩ | ⟨_, _, -, rfl⟩⟩ <;> rfl
    exact .inl ⟨hr, fun _ => .inl hp⟩

/-- Only the refused outcome of a reason has that reason. -/
theorem reason_eq_some {e : Ending} {r : Reason} (h : e.reason = some r) : e = .refused r := by
  cases e <;> cases h
  rfl

/-- A mark stays through a step (R16). -/
theorem step_refusal_kept {s t : State} {r : Reason} (h : step s = .next t)
    (hs : s.refusal = some r) : t.refusal = some r := by
  rcases step_outcome h with ⟨hr, -⟩ | ⟨e, -, -, -, -, hr⟩ <;> rw [hr, hs]
  rfl

/-- A new mark is that of a refused outcome met in this step. -/
theorem step_refusal_new {s t : State} {r : Reason} (h : step s = .next t) (hs : s.refusal = none)
    (ht : t.refusal = some r) :
    s.phase ≠ .done ∧ s.phase ≠ .idle ∧ t.phase = .done ∧ t.pending = .ending (.refused r) := by
  rcases step_outcome h with ⟨hr, -⟩ | ⟨e, hi, hd, htd, hte, hr⟩
  · rw [hr, hs] at ht
    cases ht
  · rw [hr, hs, Option.none_or] at ht
    exact ⟨hd, hi, htd, by rw [hte, reason_eq_some ht]⟩

/-- A refused outcome met in an unmarked run marks it with its reason. -/
theorem step_refused_marks {s t : State} {r : Reason} (h : step s = .next t) (hs : s.refusal = none)
    (hd : s.phase ≠ .done) (htd : t.phase = .done) (ht : t.pending = .ending (.refused r)) :
    t.refusal = some r := by
  rcases step_outcome h with ⟨-, hn⟩ | ⟨e, -, -, -, hte, hr⟩
  · exact absurd ht ((hn htd).resolve_left hd _)
  · rw [ht] at hte
    cases hte
    rw [hr, hs]
    rfl

/-- What every step keeps holds after any number of steps. -/
theorem steps_keep {P : State → Prop} (hP : ∀ s t, step s = .next t → P s → P t) {k : Nat} {s t : State}
    (h : steps k s = .next t) (hs : P s) : P t := by
  induction k generalizing s with
  | zero => cases h; exact hs
  | succ k ih =>
    unfold steps Host.Core.run at h
    split at h
    · next u hu => exact ih h (hP s u hu hs)
    · cases h
    · cases h

/-- A mark stays through a run. -/
theorem steps_refusal_kept {k : Nat} {s t : State} {r : Reason} (h : steps k s = .next t)
    (hs : s.refusal = some r) : t.refusal = some r :=
  steps_keep (P := fun s => s.refusal = some r) (fun _ _ => step_refusal_kept) h hs

/-- Settles O58, from `step_outcome`: a step that meets an outcome is the only one that touches the mark,
and it keeps a mark that is there. -/
theorem aRefusalMarksTheWholeRun : Obligations.ARefusalMarksTheWholeRun := by
  refine ⟨fun _ _ _ => step_refusal_kept, fun _ _ _ => step_refusal_new,
    fun _ _ _ => step_refused_marks, fun k s t h ht => ?_, fun k s t r h hs => ?_⟩
  · cases hs : s.refusal with
    | none => simp [notRefused, hs]
    | some r => simp [notRefused, steps_refusal_kept h hs] at ht
  · simp [goodEnd, notRefused, steps_refusal_kept h hs]

end Sys2Proof.Machine
end

section
/-! PROOFS. Renaming the transport's error values commutes with every operation (00_scope.md R9, R224):
first what renaming leaves alone, then each shared operation, each row of the table, and each action of
SEQ. -/

namespace Sys2Proof.Machine

section
variable (f : TransportError → TransportError)

/-! ## What renaming leaves alone -/

@[simp] theorem mapError_cfg (s : State) : (s.mapError f).cfg = s.cfg := rfl

@[simp] theorem mapError_reqFn (s : State) : (s.mapError f).reqFn = s.reqFn := rfl

@[simp] theorem mapError_crc (s : State) : (s.mapError f).crc = s.crc := rfl

@[simp] theorem mapError_reqRaw (s : State) : (s.mapError f).reqRaw = s.reqRaw := rfl

@[simp] theorem mapError_rxLen (s : State) : (s.mapError f).rxLen = s.rxLen := rfl

@[simp] theorem mapError_phase (s : State) : (s.mapError f).phase = s.phase := rfl

@[simp] theorem mapError_pending (s : State) : (s.mapError f).pending = s.pending.mapError f := rfl

@[simp] theorem mapError_lineAns (s : State) :
    (s.mapError f).lineAns = s.lineAns.map (CallAnswer.mapError f) := rfl

@[simp] theorem mapError_readAns (s : State) :
    (s.mapError f).readAns = s.readAns.map (ReadAnswer.mapError f) := rfl

@[simp] theorem mapError_commandOperands (s : State) :
    commandOperands (s.mapError f) = commandOperands s := rfl

@[simp] theorem mapError_memReadByte (sp : Space) (a : Nat) (s : State) :
    memReadByte sp a (s.mapError f) = memReadByte sp a s :=
  memReadByte_congr (by cases sp <;> rfl) (by cases sp <;> rfl) a

@[simp] theorem mapError_memReadBytes (sp : Space) (a n : Nat) (s : State) :
    memReadBytes sp a n (s.mapError f) = memReadBytes sp a n s :=
  memReadBytes_congr (by cases sp <;> rfl) (by cases sp <;> rfl) a n

@[simp] theorem mapError_memReadBe16 (sp : Space) (a : Nat) (s : State) :
    memReadBe16 sp a (s.mapError f) = memReadBe16 sp a s := by
  simp [memReadBe16]

@[simp] theorem mapError_memReadLe16 (sp : Space) (a : Nat) (s : State) :
    memReadLe16 sp a (s.mapError f) = memReadLe16 sp a s := by
  simp [memReadLe16]

@[simp] theorem mapError_memReadWords (sp : Space) (a n : Nat) (s : State) :
    memReadWords sp a n (s.mapError f) = memReadWords sp a n s := by
  induction n generalizing a with
  | zero => rfl
  | succ n ih => simp [memReadWords, ih]

/-! ## What a renamed answer is made of -/

/-- A read's answer is renamed in its continuation. -/
@[simp] theorem mapNext_reading {α : Type} (g : State → State) (x : Except Fault α)
    (k : α → StepResult) :
    mapNext g (reading x k) = reading x fun v => mapNext g (k v) := by
  cases x <;> rfl

@[simp] theorem mapNext_ite (g : State → State) (c : Prop) [Decidable c] (x y : StepResult) :
    mapNext g (if c then x else y) = if c then mapNext g x else mapNext g y :=
  apply_ite (mapNext g) c x y

/-! ## Shared operations -/

/-- The operation carries error values: it answers a renamed state with its answer renamed. -/
def CarriesErrors (op : State → StepResult) : Prop :=
  ∀ s, op (s.mapError f) = mapNext (State.mapError f) (op s)

/-- The error of an outcome, renamed: what `Pending.mapError` does to an outcome that waits. -/
def Ending.mapError : Ending → Ending
  | .fail x => .fail (x.mapError f)
  | .ok r => .ok r
  | .handleOk => .handleOk
  | .refused r => .refused r

theorem pending_mapError_ending (e : Ending) :
    (Pending.ending e).mapError f = .ending (e.mapError f) := by
  cases e <;> rfl

/-- Of the outcome registers only XERR takes an error value (R218). -/
theorem finish_mapError (e : Ending) (s : State) :
    finish (e.mapError f) (s.mapError f) = (finish e s).mapError f := by
  match e with
  | .ok _ | .handleOk | .refused _ => rfl
  | .fail .argCount | .fail .tooShort | .fail .checkFails | .fail .illegalErrorCode => rfl
  | .fail (.deviceException _) | .fail (.transportFailure _) | .fail (.handleFailure _) => rfl

theorem crcOver_mapError (bytes : List Byte) (s : State) :
    crcOver bytes (s.mapError f) = (crcOver bytes s).mapError f := by
  rw [crcOver_eq, crcOver_eq]
  rfl

theorem storeFrame_mapError (body : List Byte) (s : State) :
    storeFrame body (s.mapError f) = (storeFrame body s).mapError f := by
  rw [storeFrame_eq, storeFrame_eq]
  rfl

theorem emit_carries (n : Nat) (body : List Byte) : CarriesErrors f (emit n body) := fun s => by
  unfold emit
  rw [mapNext_ite, mapNext_next, mapNext_next, ← storeFrame_mapError]
  rfl

theorem beginHandle_carries (p : Pending) (hp : p.mapError f = p) : CarriesErrors f (beginHandle p) :=
  fun s => by
    have hs : { clearOutcome (s.mapError f) with phase := .done, pending := p } =
        ({ clearOutcome s with phase := .done, pending := p } : State).mapError f := by
      simp [State.mapError, clearOutcome, hp]
    unfold beginHandle
    rw [mapNext_ite, mapNext_next, ← hs]
    rfl

theorem onCrcPort_carries {op : State → State}
    (hop : ∀ s : State, op (s.mapError f) = (op s).mapError f) :
    CarriesErrors f (onCrcPort op) := fun s => by
  unfold onCrcPort
  rw [mapNext_ite, mapNext_next, mapNext_next, ← hop]
  rfl

/-! ## Decoders of a response -/

@[simp] theorem layoutMismatch_mapError (s : State) :
    layoutMismatch (s.mapError f) = mapNext (State.mapError f) (layoutMismatch s) := rfl

@[simp] theorem okWith_mapError (r : Result) (s : State) :
    okWith r (s.mapError f) = mapNext (State.mapError f) (okWith r s) := rfl

theorem decodeRaw_carries : CarriesErrors f decodeRaw := fun s => by simp [decodeRaw]

theorem decodeBits_carries : CarriesErrors f decodeBits := fun s => by simp [decodeBits]

theorem decodeRegs_carries : CarriesErrors f decodeRegs := fun s => by simp [decodeRegs]

theorem decodeEcho_carries : CarriesErrors f decodeEcho := fun s => by simp [decodeEcho]

theorem decodeStatus_carries : CarriesErrors f decodeStatus := fun s => by simp [decodeStatus]

theorem decodeCounter_carries : CarriesErrors f decodeCounter := fun s => by simp [decodeCounter]

theorem decodeLog_carries : CarriesErrors f decodeLog := fun s => by simp [decodeLog]

/-- The checksum and the raw flag are judged on renamed states as on the states themselves. -/
theorem checkedDecode_carries {d : State → StepResult} (hd : CarriesErrors f d) :
    CarriesErrors f (checkedDecode d) := fun s => by
  have hc (t : State) : endWith (.fail .checkFails) (t.mapError f) =
      (endWith (.fail .checkFails) t).mapError f := rfl
  simp [checkedDecode, crcOver_mapError, hc, hd _, decodeRaw_carries f _]

/-! ## Rows of the table -/

/-- No row of the table looks into an error value. -/
theorem exec_carries (i : Instr) : CarriesErrors f (exec i) := by
  cases i
  case wmc stn start qty coils =>
    intro s
    simp only [exec, execWmc, mapNext_ite, mapNext_next, mapError_cfg, ← emit_carries f _ _ s]
    rfl
  case wmr stn start qty values =>
    intro s
    simp only [exec, execWmr, mapNext_ite, mapNext_next, ← emit_carries f _ _ s]
    rfl
  case rcResponse => exact checkedDecode_carries f (decodeBits_carries f)
  case rdiResponse => exact checkedDecode_carries f (decodeBits_carries f)
  case rhrResponse => exact checkedDecode_carries f (decodeRegs_carries f)
  case rirResponse => exact checkedDecode_carries f (decodeRegs_carries f)
  case wscResponse => exact checkedDecode_carries f (decodeEcho_carries f)
  case wsrResponse => exact checkedDecode_carries f (decodeEcho_carries f)
  case resResponse => exact checkedDecode_carries f (decodeStatus_carries f)
  case gcecResponse => exact checkedDecode_carries f (decodeCounter_carries f)
  case gcelResponse => exact checkedDecode_carries f (decodeLog_carries f)
  case diagResponse => exact checkedDecode_carries f (decodeRaw_carries f)
  case wmcResponse => exact checkedDecode_carries f (decodeRaw_carries f)
  case wmrResponse => exact checkedDecode_carries f (decodeRaw_carries f)
  case rsidResponse => exact checkedDecode_carries f (decodeRaw_carries f)
  case exceptionResponse =>
    intro s
    simp only [exec, execExceptionResponse, mapError_memReadByte, mapNext_reading]
    rfl
  case crcInit => exact onCrcPort_carries f fun _ => rfl
  case crcUpdate => exact onCrcPort_carries f fun _ => rfl
  case crcHold => exact onCrcPort_carries f fun _ => rfl
  case xltLookup => exact fun _ => rfl
  case openLine => exact beginHandle_carries f _ rfl
  case closeLine => exact beginHandle_carries f _ rfl
  all_goals exact emit_carries f _ _

/-! ## The step -/

theorem putReg_carries (w : RegWrite) : CarriesErrors f (putReg w) := fun s => by
  cases w
  case value i x =>
    simp only [putReg, mapError_cfg, mapNext_ite]
    rfl
  all_goals rfl

/-- A host event carries error values; only `rst` puts one of its own in XERR (log entry 3). -/
theorem hostAction_carries (e : HostEvent) (h : e ≠ .rst ∨ f .first = .first) :
    CarriesErrors f fun s => (hostAction e s).result := by
  intro s
  cases e with
  | write w =>
    show writeReg w (s.mapError f) = mapNext _ (writeReg w s)
    rw [writeReg, writeReg, mapNext_ite, ← putReg_carries]
    rfl
  | rst =>
    have hf : f .first = .first := h.resolve_left (absurd rfl)
    have hx : (hardReset s).mapError f = { hardReset s with
        lineAns := s.lineAns.map (CallAnswer.mapError f)
        readAns := s.readAns.map (ReadAnswer.mapError f) } := by
      simp [State.mapError, State.reset, Pending.mapError, hf]
    exact congrArg Host.Outcome.next hx.symm
  | crcPort init en din => exact exec_carries f _ s
  | xltPort code => exact exec_carries f (.xltLookup code) s
  | command kind =>
    simp only [hostAction]
    split
    · exact exec_carries f _ s
    · show hostStart (s.mapError f) = mapNext _ (hostStart s)
      rw [hostStart, hostStart, mapNext_ite]
      rfl
    · rfl

theorem encodeAction_carries : CarriesErrors f fun s => (encodeAction s).result := by
  intro s
  simp only [encodeAction, mapError_commandOperands]
  split
  · rfl
  · split
    · exact exec_carries f _ s
    · rfl

theorem sendStep_carries : CarriesErrors f sendStep := fun s => by
  unfold sendStep
  match h : s.lineAns with
  | [] => simp [h]
  | ans :: rest =>
    simp only [mapError_lineAns, h, List.map_cons, mapError_txFrame, mapNext_reading]
    cases ans <;> rfl

theorem receiveStep_carries : CarriesErrors f receiveStep := fun s => by
  unfold receiveStep
  match h : s.readAns with
  | [] => simp [h]
  | .bytes r :: rest =>
    simp only [mapError_readAns, h, List.map_cons, ReadAnswer.mapError, mapError_cfg, mapNext_ite]
    rfl
  | .err e :: rest =>
    simp only [mapError_readAns, h, List.map_cons, ReadAnswer.mapError]
    rfl

theorem validateAction_carries : CarriesErrors f fun s => (validateAction s).result := by
  intro s
  simp only [validateAction, mapError_rxLen, mapError_reqFn, mapError_memReadByte]
  split
  · rfl
  · split
    · rfl
    · split
      · exact exec_carries f _ s
      · rfl
      · rfl

theorem handleStep_carries (call : TransportCall) (up : Bool) : CarriesErrors f (handleStep call up) :=
  fun s => by
    unfold handleStep
    match h : s.lineAns with
    | [] => simp [h]
    | ans :: rest =>
      simp only [mapError_lineAns, h, List.map_cons]
      cases ans <;> rfl

theorem doneStep_carries : CarriesErrors f doneStep := fun s => by
  unfold doneStep
  match h : s.pending with
  | .ending e =>
    simp only [mapError_pending, h, pending_mapError_ending, finish_mapError, mapNext_next]
  | .opening =>
    simp only [mapError_pending, h, Pending.mapError]
    exact handleStep_carries f _ _ s
  | .closing =>
    simp only [mapError_pending, h, Pending.mapError]
    exact handleStep_carries f _ _ s
  | .nothing => simp only [mapError_pending, h, Pending.mapError, mapNext_fault]

theorem seqAction_carries : CarriesErrors f fun s => (seqAction s).result := by
  intro s
  simp only [seqAction, mapError_phase]
  split
  · rfl
  · exact encodeAction_carries f s
  · exact sendStep_carries f s
  · exact receiveStep_carries f s
  · exact validateAction_carries f s
  · exact doneStep_carries f s

end

/-- Settles O59, by the carrying lemma of the action the step takes: the event that lands, which is not
`rst` or finds its reset value kept, or SEQ's own step. -/
theorem errorValuesAreCarriedUnchanged : Obligations.ErrorValuesAreCarriedUnchanged := by
  intro f s h
  match ha : arriving s with
  | none =>
    rw [step_of_none ha, step_of_none (s := s.mapError f) ha]
    exact seqAction_carries f s
  | some (e, rest) =>
    have hl : lands e rest s := (arriving_iff_lands s e rest).1 ha
    have he : e ≠ .rst ∨ f .first = .first := h.imp_left fun hn hr => hn rest (hr ▸ hl)
    rw [step_of_lands hl, step_of_lands (s := s.mapError f) hl]
    exact hostAction_carries f e he { s with hostIn := rest }

end Sys2Proof.Machine
end

section
/-! PROOFS. The CRC unit's residue law (40_crc.md R117): a message followed by its own checksum, low byte
first, leaves 0 in the accumulator. -/

namespace Sys2Proof

/-- While the bits to be shifted out are 0, the iterations of R111 are one logical shift. -/
theorem crcIters_eq_shift {n : Nat} {c : Word} (h : ∀ k, k < n → c.getLsbD k = false) :
    crcIters n c = c >>> n := by
  induction n generalizing c with
  | zero => simp [crcIters]
  | succ n ih =>
    have hc : crcIter c = c >>> 1 := by
      rw [crcIter, h 0 (by omega)]
      rfl
    have hs : ∀ k, k < n → (c >>> 1).getLsbD k = false := fun k hk => by
      simpa [Nat.add_comm] using h (k + 1) (by omega)
    rw [crcIters, hc, ih hs, ← BitVec.shiftRight_add, Nat.add_comm]

/-- The accumulator's own low byte cancels: what is left is its high byte, shifted down. -/
theorem crcStep_loByte (c : Word) : crcStep c (loByte c) = (hiByte c).setWidth 16 := by
  have hlow : ∀ k, k < 8 → (c ^^^ (loByte c).setWidth 16).getLsbD k = false := fun k hk => by
    simp [loByte, hk, show k < 16 by omega]
  rw [crcStep, crcIters_eq_shift hlow]
  ext k hk
  by_cases h8 : k < 8
  · simp [hiByte, loByte, h8]
  · simp [hiByte, loByte, h8, show 16 ≤ 8 + k by omega]

theorem crcStep_self (b : Byte) : crcStep (b.setWidth 16) b = 0 := by
  rw [crcStep, BitVec.xor_self, crcIters_eq_shift (by simp)]
  simp

/-- The residue law (R117). -/
theorem crc16_append_le16 (s : List Byte) : crc16 (s ++ le16 (crc16 s)) = 0 := by
  rw [crc16, List.foldl_append]
  show crcStep (crcStep (crc16 s) (loByte (crc16 s))) (hiByte (crc16 s)) = 0
  rw [crcStep_loByte, crcStep_self]

/-- A frame as it is sent has residue 0 (R131). -/
@[simp] theorem crc16_withCrc (body : List Byte) : crc16 (withCrc body) = 0 := crc16_append_le16 body

@[simp] theorem length_withCrc (body : List Byte) : (withCrc body).length = body.length + 2 := by
  simp [withCrc, le16]

end Sys2Proof
end

section
/-! PROOFS. The response as DEC reads it (10_state.md's preamble, R26, R29): reads of RXB are reads of the
byte list `rxFrame` gives, so each decoder computes its typed counterpart, and the step in VALIDATE
computes `validateResponse`. -/

namespace Sys2Proof.Machine

/-! ## Reads of RXB -/

theorem rxFrame_length {s : State} {r : List Byte} (hr : rxFrame s = .ok r) : r.length = s.rxLen :=
  ((rxFrame_ok_iff s r).1 hr).1

/-- The response depends on RXB and RX_LEN only. -/
theorem rxFrame_congr {s t : State} (hb : t.rxb = s.rxb) (hl : t.rxLen = s.rxLen) :
    rxFrame t = rxFrame s := by
  rw [rxFrame, rxFrame, hl]
  exact memReadBytes_congr (sp := .rxb) hb hl 0 _

/-- The request frame depends on TXB and TX_LEN only. -/
theorem txFrame_congr {s t : State} (hb : t.txb = s.txb) (hl : t.txLen = s.txLen) :
    txFrame t = txFrame s := by
  rw [txFrame, txFrame, hl]
  exact memReadBytes_congr (sp := .txb) hb hl 0 _

/-- A response that is held stays held where RXB and RX_LEN are the same. -/
theorem rxFrame_ok_congr {s t : State} {r : List Byte} (hr : rxFrame s = .ok r) (hb : t.rxb = s.rxb)
    (hl : t.rxLen = s.rxLen) : rxFrame t = .ok r := (rxFrame_congr hb hl).trans hr

/-- A request frame that is held stays held where TXB and TX_LEN are the same. -/
theorem txFrame_ok_congr {s t : State} {f : List Byte} (hf : txFrame s = .ok f) (hb : t.txb = s.txb)
    (hl : t.txLen = s.txLen) : txFrame t = .ok f := (txFrame_congr hb hl).trans hf

theorem getElem?_eq_getD {r : List Byte} {k : Nat} (h : k < r.length) : r[k]? = some (r.getD k 0) := by
  simp [h]

section
variable {s : State} {r : List Byte} (hr : rxFrame s = .ok r)
include hr

theorem memReadByte_rxb {k : Nat} {x : Byte} (hx : r[k]? = some x) : memReadByte .rxb k s = .ok x := by
  obtain ⟨hk, -⟩ := List.getElem?_eq_some_iff.1 hx
  rw [rxFrame_length hr] at hk
  exact (memReadByte_ok_iff ..).2 ⟨hk, (((rxFrame_ok_iff s r).1 hr).2 k hk).trans hx⟩

theorem memReadBe16_rxb {k : Nat} {hi lo : Byte} (hhi : r[k]? = some hi) (hlo : r[k + 1]? = some lo) :
    memReadBe16 .rxb k s = .ok (joinBytes hi lo) := by
  simp [memReadBe16, memReadByte_rxb hr hhi, memReadByte_rxb hr hlo]

theorem memReadLe16_rxb {k : Nat} {lo hi : Byte} (hlo : r[k]? = some lo) (hhi : r[k + 1]? = some hi) :
    memReadLe16 .rxb k s = .ok (joinBytes hi lo) := by
  simp [memReadLe16, memReadByte_rxb hr hhi, memReadByte_rxb hr hlo]

theorem memReadBytes_rxb {a n : Nat} (h : a + n ≤ r.length) :
    memReadBytes .rxb a n s = .ok ((r.drop a).take n) := by
  refine (memReadBytes_ok_iff ..).2 ⟨by simp; omega, fun k hk => ?_⟩
  have hx : r[a + k]? = some (r[a + k]'(by omega)) := List.getElem?_eq_getElem _
  exact ⟨_, by simp [hk, hx], memReadByte_rxb hr hx⟩

/-- An even run of bytes of the response reads as the fields it stands for (R168). -/
theorem memReadWords_rxb {a n : Nat} (h : a + 2 * n ≤ r.length) :
    ∃ ws, wordsOf ((r.drop a).take (2 * n)) = some ws ∧ memReadWords .rxb a n s = .ok ws := by
  induction n generalizing a with
  | zero => exact ⟨[], rfl, rfl⟩
  | succ n ih =>
    obtain ⟨ws, hws, hread⟩ := ih (a := a + 2) (by omega)
    have hhi : r[a]? = some (r[a]'(by omega)) := List.getElem?_eq_getElem _
    have hlo : r[a + 1]? = some (r[a + 1]'(by omega)) := List.getElem?_eq_getElem _
    have hcut : (r.drop a).take (2 * (n + 1)) =
        r[a] :: r[a + 1] :: (r.drop (a + 2)).take (2 * n) := by
      rw [List.drop_eq_getElem_cons (show a < r.length by omega),
        List.drop_eq_getElem_cons (show a + 1 < r.length by omega)]
      rfl
    refine ⟨joinBytes r[a] r[a + 1] :: ws, by simp [hcut, wordsOf, hws], ?_⟩
    simp [memReadWords, memReadBe16_rxb hr hhi hlo, hread]

end

/-! ## The decoders -/

/-- The decoder gives, on every response, the outcome that the typed view gives. -/
def DecodesAs (d : State → StepResult) (g : List Byte → Ending) : Prop :=
  ∀ s r, rxFrame s = .ok r → d s = .next (endWith (g r) s)

theorem decodeRaw_decodesAs : DecodesAs decodeRaw fun r => .ok (.raw r) := fun s r hr => by
  rw [decodeRaw, hr]
  rfl

theorem decodeBits_decodesAs : DecodesAs decodeBits bitsResult := fun s r hr => by
  have hl := rxFrame_length hr
  unfold decodeBits
  match r with
  | [] | [_] | [_, _] => rw [← hl]; rfl
  | stn :: fn :: bc :: rest =>
    rw [memReadByte_rxb hr (k := 0) rfl, memReadByte_rxb hr (k := 1) rfl,
      memReadByte_rxb hr (k := 2) rfl, bitsResult, hl]
    by_cases h : s.rxLen = 5 + bc.toNat
    · rw [if_neg (by omega), if_pos h]
      simp only [reading_ok]
      rw [if_neg (not_not.2 h), memReadBytes_rxb hr (by omega)]
      rfl
    · simp only [reading_ok, if_neg h, if_pos h, ite_self]
      rfl

theorem decodeRegs_decodesAs : DecodesAs decodeRegs regsResult := fun s r hr => by
  have hl := rxFrame_length hr
  unfold decodeRegs
  match r with
  | [] | [_] | [_, _] => rw [← hl]; rfl
  | stn :: fn :: bc :: rest =>
    rw [memReadByte_rxb hr (k := 0) rfl, memReadByte_rxb hr (k := 1) rfl,
      memReadByte_rxb hr (k := 2) rfl, regsResult, hl]
    by_cases h : s.rxLen = 5 + bc.toNat ∧ bc.toNat % 2 = 0
    · obtain ⟨ws, hws, hread⟩ := memReadWords_rxb hr (a := 3) (n := bc.toNat / 2) (by omega)
      rw [show 2 * (bc.toNat / 2) = bc.toNat by omega] at hws
      simp only [List.drop_succ_cons, List.drop_zero] at hws
      rw [if_neg (by omega), if_pos h]
      simp only [reading_ok, hread, hws]
      rw [if_neg (by omega)]
      rfl
    · simp only [reading_ok, if_neg h]
      split
      · rfl
      · rw [if_pos (by omega)]
        rfl

theorem decodeEcho_decodesAs : DecodesAs decodeEcho echoResult := fun s r hr => by
  have hl := rxFrame_length hr
  unfold decodeEcho
  by_cases h : r.length = 8
  · rw [if_neg (not_not.2 (hl ▸ h))]
    match r, h with
    | [_, _, _, _, _, _, _, _], _ =>
      rw [memReadByte_rxb hr (k := 0) rfl, memReadByte_rxb hr (k := 1) rfl,
        memReadBe16_rxb hr (k := 2) rfl rfl, memReadBe16_rxb hr (k := 4) rfl rfl]
      rfl
  · rw [if_pos (hl ▸ h), echoResult]
    · rfl
    · rintro _ _ _ _ _ _ _ _ rfl
      exact h rfl

theorem decodeStatus_decodesAs : DecodesAs decodeStatus statusResult := fun s r hr => by
  have hl := rxFrame_length hr
  unfold decodeStatus
  by_cases h : r.length = 5
  · rw [if_neg (not_not.2 (hl ▸ h))]
    match r, h with
    | [_, _, _, _, _], _ =>
      rw [memReadByte_rxb hr (k := 0) rfl, memReadByte_rxb hr (k := 1) rfl,
        memReadByte_rxb hr (k := 2) rfl]
      rfl
  · rw [if_pos (hl ▸ h), statusResult]
    · rfl
    · rintro _ _ _ _ _ rfl
      exact h rfl

theorem decodeCounter_decodesAs : DecodesAs decodeCounter counterResult := fun s r hr => by
  have hl := rxFrame_length hr
  unfold decodeCounter
  by_cases h : r.length = 8
  · rw [if_neg (not_not.2 (hl ▸ h))]
    match r, h with
    | [_, _, _, _, _, _, _, _], _ =>
      rw [memReadByte_rxb hr (k := 0) rfl, memReadByte_rxb hr (k := 1) rfl,
        memReadBe16_rxb hr (k := 2) rfl rfl, memReadBe16_rxb hr (k := 4) rfl rfl]
      rfl
  · rw [if_pos (hl ▸ h), counterResult]
    · rfl
    · rintro _ _ _ _ _ _ _ _ rfl
      exact h rfl

theorem decodeLog_decodesAs : DecodesAs decodeLog logResult := fun s r hr => by
  have hl := rxFrame_length hr
  unfold decodeLog
  by_cases h11 : r.length < 11
  · rw [if_pos (hl ▸ h11)]
    unfold logResult
    split
    · rw [if_neg (by simp only [List.length_cons] at h11; omega)]
      rfl
    · rfl
  · rw [if_neg (hl ▸ h11)]
    match r, Nat.le_of_not_lt h11 with
    | stn :: fn :: bc :: s1 :: s0 :: e1 :: e0 :: m1 :: m0 :: rest, _ =>
      rw [memReadByte_rxb hr (k := 0) rfl, memReadByte_rxb hr (k := 1) rfl,
        memReadByte_rxb hr (k := 2) rfl, memReadBe16_rxb hr (k := 3) rfl rfl,
        memReadBe16_rxb hr (k := 5) rfl rfl, memReadBe16_rxb hr (k := 7) rfl rfl, logResult]
      simp only [reading_ok]
      simp only [List.length_cons] at hl h11
      by_cases h : s.rxLen = 5 + bc.toNat
      · rw [if_neg (not_not.2 h), if_pos (by omega),
          memReadBytes_rxb hr (by simp only [List.length_cons]; omega)]
        rfl
      · rw [if_pos h, if_neg (by omega)]
        rfl

/-! ## The checksum, and the step in VALIDATE -/

/-- Steps 6 and 7 on a response: the typed outcome, and CRC as computed over it (R162, R163). -/
theorem checkedDecode_eq {d : State → StepResult} {fn : Byte} (hd : DecodesAs d (structuredResult fn))
    {s : State} {r : List Byte} (hr : rxFrame s = .ok r) (h2 : 2 ≤ r.length) :
    checkedDecode d s = .next (endWith (successOutcome fn s.reqRaw r)
      { s with crc := crc16 (r.take (r.length - 2)) }) := by
  have hlast : r.length - 2 + 1 = r.length - 1 := by omega
  have hbody := memReadBytes_rxb hr (a := 0) (n := r.length - 2) (by omega)
  have hsum := memReadLe16_rxb hr (getElem?_eq_getD (k := r.length - 2) (by omega))
    (getElem?_eq_getD (by omega))
  have ht : ∀ c, rxFrame { s with crc := c } = .ok r := fun _ =>
    rxFrame_ok_congr hr rfl rfl
  rw [rxFrame_length hr] at hbody hsum hlast
  simp only [checkedDecode, hbody, hsum, hlast, reading_ok, crcOver_eq, successOutcome, checksumOk,
    rxFrame_length hr, List.drop_zero, beq_eq_false_iff_ne]
  split
  · rfl
  · split
    · exact decodeRaw_decodesAs _ _ (ht _)
    · exact hd _ _ (ht _)

/-- Every code of the catalogue selects a response row, which computes the typed outcome (R86, R165). -/
theorem exec_success {s : State} {r : List Byte} {fn : Byte} (hc : catalogued fn = true)
    (hr : rxFrame s = .ok r) (h2 : 2 ≤ r.length) :
    ∃ i, decodeSuccess fn = .ok i ∧ exec i s = .next (endWith (successOutcome fn s.reqRaw r)
      { s with crc := crc16 (r.take (r.length - 2)) }) := by
  have hv : fn = BitVec.ofNat 8 fn.toNat := by simp
  unfold catalogued at hc
  split at hc <;> try cases hc
  all_goals
    rename_i he
    rw [he] at hv
    subst hv
  · exact ⟨_, rfl, checkedDecode_eq decodeBits_decodesAs hr h2⟩
  · exact ⟨_, rfl, checkedDecode_eq decodeBits_decodesAs hr h2⟩
  · exact ⟨_, rfl, checkedDecode_eq decodeRegs_decodesAs hr h2⟩
  · exact ⟨_, rfl, checkedDecode_eq decodeRegs_decodesAs hr h2⟩
  · exact ⟨_, rfl, checkedDecode_eq decodeEcho_decodesAs hr h2⟩
  · exact ⟨_, rfl, checkedDecode_eq decodeEcho_decodesAs hr h2⟩
  · exact ⟨_, rfl, checkedDecode_eq decodeStatus_decodesAs hr h2⟩
  · exact ⟨_, rfl, checkedDecode_eq decodeRaw_decodesAs hr h2⟩
  · exact ⟨_, rfl, checkedDecode_eq decodeCounter_decodesAs hr h2⟩
  · exact ⟨_, rfl, checkedDecode_eq decodeLog_decodesAs hr h2⟩
  · exact ⟨_, rfl, checkedDecode_eq decodeRaw_decodesAs hr h2⟩
  · exact ⟨_, rfl, checkedDecode_eq decodeRaw_decodesAs hr h2⟩
  · exact ⟨_, rfl, checkedDecode_eq decodeRaw_decodesAs hr h2⟩

/-- VALIDATE computes the typed validation of the response, and CRC when step 6 is reached (R160 to
R165). -/
theorem validateAction_eq {s : State} {r : List Byte} (hr : rxFrame s = .ok r)
    (hc : catalogued s.reqFn = true) :
    (validateAction s).result = .next (endWith (validateResponse s.reqFn s.reqRaw r)
      { s with crc := if 4 ≤ r.length ∧ r.getD 1 0 = s.reqFn then crc16 (r.take (r.length - 2))
                      else s.crc }) := by
  have hl := rxFrame_length hr
  unfold validateAction validateResponse
  by_cases h4 : r.length < 4
  · rw [if_pos (hl ▸ h4), if_pos h4, if_neg (by omega)]
    rfl
  · rw [if_neg (hl ▸ h4), if_neg h4, memReadByte_rxb hr (getElem?_eq_getD (by omega))]
    simp only [decode, decodeResponse]
    by_cases hf : r.getD 1 0 = s.reqFn
    · obtain ⟨i, hi, hx⟩ := exec_success hc hr (by omega)
      rw [if_pos hf, if_neg (not_not.2 hf), if_pos ⟨by omega, hf⟩, hi]
      exact hx
    · have hcrc : ¬ (4 ≤ r.length ∧ r.getD 1 0 = s.reqFn) := fun h => hf h.2
      rw [if_neg hf, if_pos hf, if_neg hcrc]
      by_cases h80 : (r.getD 1 0).toNat = s.reqFn.toNat + 0x80
      · rw [if_pos h80, if_pos h80]
        show execExceptionResponse s = _
        rw [execExceptionResponse, memReadByte_rxb hr (getElem?_eq_getD (by omega))]
        rfl
      · rw [if_neg h80, if_neg h80]
        rfl

end Sys2Proof.Machine
end

section
/-! PROOFS. The invariant of the block holds at reset and every step keeps it (10_state.md R25 to R29,
20_memory.md R50): one lemma per thing a step can do to the state, then the step put together from them. -/

namespace Sys2Proof.Machine

/-- `rst` leads to a state with the invariant, whatever the parameters. -/
theorem inv_hardReset (s : State) : Inv (hardReset s) where
  txbForm := rfl
  rxbForm := rfl
  vForm := rfl
  txbBound _ _ := rfl
  rxbBound _ _ := rfl
  vBound _ _ := rfl
  txHeld := ⟨Nat.zero_le _, nofun⟩
  rxHeld := ⟨Nat.zero_le _, nofun⟩
  pendingInDone := ⟨nofun, fun _ => rfl⟩
  validInIdle := nofun
  capturesValid := nofun
  responseWithRequest := nofun
  txEmpty _ := rfl
  rxEmpty _ := rfl
  refusedMarked := by rintro (⟨r, h⟩ | ⟨h, -⟩) <;> cases h
  latchFn := nofun
  latchRaw := nofun
  latchCatalogued := nofun
  frameOut := nofun
  resultIsWindow := nofun

/-! ## The outcome table (R218) -/

/-- A response is captured only beside its request. -/
theorem reqCap_of_rspCap {e : Ending} (h : e.rspCap = true) : e.reqCap = true := by
  match e, h with
  | .fail .tooShort, _ | .fail .checkFails, _ | .fail .illegalErrorCode, _ => rfl
  | .fail (.deviceException _), _ => rfl

theorem eq_refused_of_kind {e : Ending} (h : e.kind = .refused) : ∃ r, e = .refused r := by
  match e, h with
  | .refused r, _ => exact ⟨r, rfl⟩

section
variable {s : State} (hi : Inv s)
include hi

/-! ## What the invariant says of a phase -/

theorem resValid_false_of_busy (hp : s.phase ≠ .idle) : s.resValid = false := by
  cases hv : s.resValid
  · rfl
  · exact absurd (hi.validInIdle hv) hp

theorem pending_nothing (hp : s.phase ≠ .done) : s.pending = .nothing := hi.pendingInDone.2 hp

/-- Every byte below RX_LEN is held, so RXB holds a response (R26). -/
theorem exists_rxFrame : ∃ r, rxFrame s = .ok r := by
  refine ⟨List.ofFn fun k : Fin s.rxLen => (Sparse.read s.rxb k).getD 0,
    (rxFrame_ok_iff ..).2 ⟨by simp, fun k hk => ?_⟩⟩
  obtain ⟨x, hx⟩ := Option.isSome_iff_exists.1 (hi.rxHeld.2 k hk)
  simp [hk, hx]

/-! ## What a host event does -/

/-- The invariant does not speak of CRC, the handle bit, the XLT output, or what is outside the block. -/
theorem inv_environment (crc : Word) (up : Bool) (id : BitVec 4) (h : List HostInput)
    (l : List CallAnswer) (r : List ReadAnswer) (c : List TransportCall) :
    Inv { s with
      crc := crc, xopen := up, xltId := id, hostIn := h, lineAns := l, readAns := r, calls := c } :=
  { hi with
    frameOut := fun hp => by
      obtain ⟨f, hf, hrest⟩ := hi.frameOut hp
      exact ⟨f, txFrame_ok_congr hf rfl rfl, hrest⟩
    resultIsWindow := fun res hp => by
      obtain ⟨r, hr, hrest⟩ := hi.resultIsWindow res hp
      exact ⟨r, rxFrame_ok_congr hr rfl rfl, hrest⟩ }

/-- A command register may take any value in IDLE (R21), the value file one that fits it (R50). -/
theorem inv_registers (hp : s.phase = .idle) (stn fn : Option Byte) (a b : Option Word)
    (raw : Option Bool) (nv : Option Nat) {v : ValueFile} (hform : ValueFile.wf v = true)
    (hbound : ∀ k, s.cfg.nvMax ≤ k → Sparse.read v k = none) :
    Inv { s with stn := stn, fn := fn, a := a, b := b, raw := raw, nv := nv, v := v } :=
  { hi with
    vForm := hform
    vBound := hbound
    latchFn := fun h => by cases hp.symm.trans h
    latchRaw := fun h => by cases hp.symm.trans h
    frameOut := fun h => by
      have h : s.phase.requestOut = true := h
      simp [hp, Phase.requestOut] at h
    resultIsWindow := fun res h => by cases (pending_nothing hi (by simp [hp])).symm.trans h }

theorem inv_putReg {w : RegWrite} {t : State} (hp : s.phase = .idle) (h : putReg w s = .next t) :
    Inv t := by
  rcases putReg_cases h with ⟨_, -, rfl⟩ | ⟨_, -, rfl⟩ | ⟨_, -, rfl⟩ | ⟨_, -, rfl⟩ | ⟨_, -, rfl⟩ |
    ⟨_, -, rfl⟩ | ⟨i, x, -, hk, rfl⟩
  case inr.inr.inr.inr.inr.inr =>
    refine inv_registers hi hp _ _ _ _ _ _ (sparse_wf_write _ _ _ hi.vForm) fun k hle => ?_
    rw [sparse_read_write_other _ _ (by omega)]
    exact hi.vBound k hle
  all_goals exact inv_registers hi hp _ _ _ _ _ _ hi.vForm hi.vBound

/-- A start latches the registers and clears lengths and outcome (R211). -/
theorem inv_startExchange (hp : s.phase = .idle) : Inv (startExchange s) :=
  have hn : s.pending = .nothing := pending_nothing hi (by simp [hp])
  { hi with
    txHeld := ⟨Nat.zero_le _, nofun⟩
    rxHeld := ⟨Nat.zero_le _, nofun⟩
    pendingInDone := ⟨nofun, fun _ => hn⟩
    validInIdle := nofun
    capturesValid := nofun
    responseWithRequest := nofun
    txEmpty := fun _ => rfl
    rxEmpty := fun _ => rfl
    refusedMarked := by
      rintro (⟨r, h⟩ | ⟨h, -⟩)
      · cases hn.symm.trans h
      · cases h
    latchFn := fun _ f hf => by simp [startExchange, show s.fn = some f from hf]
    latchRaw := fun _ x hx => by simp [startExchange, show s.raw = some x from hx]
    latchCatalogued := nofun
    frameOut := nofun
    resultIsWindow := fun res h => by cases hn.symm.trans h }

/-- OPEN and CLOSE clear the outcome and wait in DONE (R222, R223). -/
theorem inv_beginHandle {p : Pending} (hn : p ≠ .nothing) (he : ∀ e, p ≠ .ending e) :
    Inv { clearOutcome s with phase := .done, pending := p } :=
  { hi with
    pendingInDone := ⟨fun h => absurd h hn, fun h => absurd rfl h⟩
    validInIdle := nofun
    capturesValid := nofun
    responseWithRequest := nofun
    txEmpty := by
      rintro (h | h)
      · cases h
      · exact absurd h (he _)
    rxEmpty := nofun
    refusedMarked := by
      rintro (⟨r, h⟩ | ⟨h, -⟩)
      · exact absurd h (he _)
      · cases h
    latchFn := nofun
    latchRaw := nofun
    latchCatalogued := nofun
    frameOut := nofun
    resultIsWindow := fun res h => absurd h (he _) }

theorem inv_hostAction {e : HostEvent} {t : State} (h : (hostAction e s).result = .next t) : Inv t := by
  rcases hostAction_cases h with ⟨w, -, ⟨-, rfl⟩ | ⟨hp, hw⟩⟩ | ⟨-, rfl⟩ |
    ⟨_, _, _, -, rfl | ⟨-, _, rfl⟩⟩ | ⟨_, -, rfl⟩ |
    ⟨_, -, ⟨-, rfl⟩ | ⟨-, hp, rfl⟩ | ⟨p, hk, hp, rfl⟩⟩
  · exact hi
  · exact inv_putReg hi hp hw
  · exact inv_hardReset s
  · exact hi
  · exact inv_environment hi ..
  · exact inv_environment hi ..
  · exact hi
  · exact inv_startExchange hi hp
  · rcases hk with ⟨-, rfl⟩ | ⟨-, rfl⟩ <;> exact inv_beginHandle hi nofun nofun

/-! ## What SEQ's own step does -/

/-- An outcome that waits in DONE marks a refused run, follows a cleared TX_LEN if it is ArgCount, and is
a window on RXB if it is a result. -/
theorem inv_endWith {e : Ending} (hp : s.phase ≠ .idle) (ha : e = .fail .argCount → s.txLen = 0)
    (hw : ∀ res, e = .ok res → ∃ r, rxFrame s = .ok r ∧ validateResponse s.reqFn s.reqRaw r = .ok res) :
    Inv (endWith e s) :=
  have hv : s.resValid = false := resValid_false_of_busy hi hp
  { hi with
    pendingInDone := ⟨nofun, fun h => absurd rfl h⟩
    validInIdle := fun h => by cases hv.symm.trans h
    txEmpty := by
      rintro (h | h)
      · cases h
      · cases h
        exact ha rfl
    rxEmpty := nofun
    refusedMarked := by
      rintro (⟨r, h⟩ | ⟨h, -⟩)
      · cases h
        simp [Ending.reason]
      · cases hv.symm.trans h
    latchFn := nofun
    latchRaw := nofun
    latchCatalogued := nofun
    frameOut := nofun
    resultIsWindow := fun res h => by
      cases h
      obtain ⟨r, hr, hrest⟩ := hw res rfl
      exact ⟨r, rxFrame_ok_congr hr rfl rfl, hrest⟩ }

/-- The frame stored in TXB is the request that is out: FN at offset 1, residue 0 (R131, R117). -/
theorem inv_storeFrame {fn : Byte} {body : List Byte} (hp : s.phase = .encode) (hfn : s.fn = some fn)
    (hc : catalogued fn = true) (hb : body[1]? = some fn) (hl : body.length + 2 ≤ s.cfg.txBufMax) :
    Inv (storeFrame body s) := by
  have hn : s.pending = .nothing := pending_nothing hi (by simp [hp])
  have hv : s.resValid = false := resValid_false_of_busy hi (by simp [hp])
  have hq : s.reqFn = fn := hi.latchFn hp fn hfn
  obtain ⟨h2, -⟩ := List.getElem?_eq_some_iff.1 hb
  have hframe := txFrame_storeFrame body s
  have hread := read_storeFrame body s
  have hform : Memory.wf (storeFrame body s).txb = true := by
    rw [storeFrame_eq]
    exact wf_writeBytes _ _ _ (wf_writeBytes _ _ _ hi.txbForm)
  rw [storeFrame_eq] at *
  exact
  { hi with
    txbForm := hform
    txbBound := fun k hk => by
      have hk : s.cfg.txBufMax ≤ k := hk
      rw [hread, if_neg (by omega)]
      exact hi.txbBound k hk
    txHeld := ⟨hl, fun k hk => by
      have hk : k < body.length + 2 := hk
      rw [hread, if_pos hk]
      simp [hk]⟩
    pendingInDone := ⟨nofun, fun _ => hn⟩
    validInIdle := fun h => by cases hv.symm.trans h
    txEmpty := by
      rintro (h | h)
      · cases h
      · cases hn.symm.trans h
    rxEmpty := fun _ => hi.rxEmpty (.inl hp)
    latchFn := nofun
    latchRaw := nofun
    latchCatalogued := fun _ => hq ▸ hc
    frameOut := fun _ => ⟨withCrc body, hframe, by rw [length_withCrc]; omega, by
      rw [withCrc, List.getElem?_append_left h2, hb, ← hq], crc16_withCrc body⟩
    resultIsWindow := fun res h => by cases hn.symm.trans h }

theorem inv_encodeAction {t : State} (hp : s.phase = .encode) (h : (encodeAction s).result = .next t) :
    Inv t := by
  rcases encodeAction_cases h with ⟨e, he, rfl⟩ | ⟨fn, body, hfn, hc, hb, hl, rfl⟩
  · refine inv_endWith hi (by simp [hp]) (fun _ => hi.txEmpty (.inl hp)) ?_
    rintro res rfl
    simp [requestEndings] at he
  · exact inv_storeFrame hi hp hfn hc hb hl

/-- The request stays out while the block turns to the response (R213). -/
theorem inv_toReceive (hp : s.phase = .send) : Inv { s with phase := .receive } :=
  have hn : s.pending = .nothing := pending_nothing hi (by simp [hp])
  have hv : s.resValid = false := resValid_false_of_busy hi (by simp [hp])
  have ho : s.phase.requestOut = true := by simp [hp, Phase.requestOut]
  { hi with
    pendingInDone := ⟨nofun, fun _ => hn⟩
    validInIdle := fun h => by cases hv.symm.trans h
    txEmpty := by
      rintro (h | h)
      · cases h
      · cases hn.symm.trans h
    rxEmpty := fun _ => hi.rxEmpty (.inr (.inl hp))
    latchFn := nofun
    latchRaw := nofun
    latchCatalogued := fun _ => hi.latchCatalogued ho
    frameOut := fun _ => by
      obtain ⟨f, hf, hrest⟩ := hi.frameOut ho
      exact ⟨f, txFrame_ok_congr hf rfl rfl, hrest⟩
    resultIsWindow := fun res h => by cases hn.symm.trans h }

theorem inv_sendStep {t : State} (hp : s.phase = .send) (h : sendStep s = .next t) : Inv t := by
  rcases sendStep_cases h with ⟨-, rfl⟩ | ⟨f, rest, -, ⟨-, rfl⟩ | ⟨e, -, rfl⟩⟩
  · exact hi
  · exact inv_environment (inv_toReceive hi hp) ..
  · exact inv_endWith (inv_environment hi ..) (by simp [hp]) nofun nofun

/-- A response that fits RXB is held there (R215). -/
theorem inv_storeResponse {r : List Byte} (hp : s.phase = .receive) (hl : r.length ≤ s.cfg.rxBufMax) :
    Inv { s with rxb := writeBytes s.rxb 0 r, rxLen := r.length, phase := .validate } :=
  have hn : s.pending = .nothing := pending_nothing hi (by simp [hp])
  have hv : s.resValid = false := resValid_false_of_busy hi (by simp [hp])
  have ho : s.phase.requestOut = true := by simp [hp, Phase.requestOut]
  { hi with
    rxbForm := wf_writeBytes _ _ _ hi.rxbForm
    rxbBound := fun k hk => by
      have hk : s.cfg.rxBufMax ≤ k := hk
      rw [read_writeBytes, if_neg (by omega)]
      exact hi.rxbBound k hk
    rxHeld := ⟨hl, fun k hk => by
      have hk : k < r.length := hk
      rw [read_writeBytes, if_pos (by omega)]
      simp [hk]⟩
    pendingInDone := ⟨nofun, fun _ => hn⟩
    validInIdle := fun h => by cases hv.symm.trans h
    txEmpty := by
      rintro (h | h)
      · cases h
      · cases hn.symm.trans h
    rxEmpty := nofun
    latchFn := nofun
    latchRaw := nofun
    latchCatalogued := fun _ => hi.latchCatalogued ho
    frameOut := fun _ => by
      obtain ⟨f, hf, hrest⟩ := hi.frameOut ho
      exact ⟨f, txFrame_ok_congr hf rfl rfl, hrest⟩
    resultIsWindow := fun res h => by cases hn.symm.trans h }

theorem inv_receiveStep {t : State} (hp : s.phase = .receive) (h : receiveStep s = .next t) : Inv t := by
  rcases receiveStep_cases s with ⟨-, hr⟩ | ⟨_, _, -, hr⟩ | ⟨_, _, -, -, hr⟩ | ⟨_, _, -, hl, hr⟩ <;>
    rw [hr] at h <;> cases h
  · exact hi
  · exact inv_endWith (inv_environment hi ..) (by simp [hp]) nofun nofun
  · exact inv_endWith (inv_environment hi ..) (by simp [hp]) nofun nofun
  · exact inv_environment (inv_storeResponse hi hp hl) ..

/-- The outcome of VALIDATE is the typed one, so a result is the window on RXB (R29). -/
theorem inv_validateAction {t : State} (hp : s.phase = .validate)
    (h : (validateAction s).result = .next t) : Inv t := by
  obtain ⟨r, hr⟩ := exists_rxFrame hi
  have hc : catalogued s.reqFn = true := hi.latchCatalogued (by simp [hp, Phase.requestOut])
  obtain ⟨e, c, he, rfl⟩ := validateAction_cases h
  rw [validateAction_eq hr hc] at h
  have hv : validateResponse s.reqFn s.reqRaw r = e :=
    Pending.ending.inj (congrArg State.pending (Host.Outcome.next.inj h))
  refine inv_endWith (inv_environment hi ..) (by simp [hp]) (fun ha => ?_) fun res hres => ?_
  · subst ha
    exact he.elim
  · exact ⟨r, rxFrame_ok_congr hr rfl rfl, hv.trans hres⟩

/-- The outcome registers are written; a refused outcome has marked the run before (R218). -/
theorem inv_finish {e : Ending} (hm : ∀ r, e = .refused r → s.refusal ≠ none) : Inv (finish e s) :=
  { hi with
    pendingInDone := ⟨fun _ => nofun, fun _ => rfl⟩
    validInIdle := fun _ => rfl
    capturesValid := fun _ => rfl
    responseWithRequest := reqCap_of_rspCap
    txEmpty := nofun
    rxEmpty := nofun
    refusedMarked := by
      rintro (⟨r, h⟩ | ⟨-, h⟩)
      · cases h
      · obtain ⟨r, hr⟩ := eq_refused_of_kind h
        exact hm r hr
    latchFn := nofun
    latchRaw := nofun
    latchCatalogued := nofun
    frameOut := nofun
    resultIsWindow := nofun }

theorem inv_doneStep {t : State} (h : doneStep s = .next t) : Inv t := by
  rcases doneStep_cases h with ⟨e, he, rfl⟩ |
    ⟨_, _, -, ⟨-, rfl⟩ | ⟨_, -, rfl⟩ | ⟨_, _, -, rfl⟩⟩
  · exact inv_finish hi fun r hr => hi.refusedMarked (.inl ⟨r, hr ▸ he⟩)
  · exact hi
  · exact inv_finish (inv_environment hi ..) nofun
  · exact inv_finish (inv_environment hi ..) nofun

end

/-- Settles O3: reset is the state `rst` leads to. -/
theorem invariantsHoldAtReset : Obligations.InvariantsHoldAtReset :=
  ⟨inv_hardReset State.reset, nofun, nofun, nofun, nofun, nofun⟩

/-- Settles O4, by the lemma of the event that lands or of the phase's own step. -/
theorem stepKeepsInvariant : Obligations.StepKeepsInvariant := by
  intro s t hi h
  rcases step_cases h with ⟨e, rest, -, h⟩ |
    ⟨-, ⟨-, rfl⟩ | ⟨hp, h⟩ | ⟨hp, h⟩ | ⟨hp, h⟩ | ⟨hp, h⟩ | ⟨-, h⟩⟩
  · exact inv_hostAction (inv_environment hi ..) h
  · exact hi
  · exact inv_encodeAction hi hp h
  · exact inv_sendStep hi hp h
  · exact inv_receiveStep hi hp h
  · exact inv_validateAction hi hp h
  · exact inv_doneStep hi h

end Sys2Proof.Machine
end

section
/-! PROOFS. The outcome registers stay legal through every step (10_state.md R28, 43_exception_lookup.md
R203, 60_exceptions.md R242, R243), and PHASE moves as R27 says. -/

namespace Sys2Proof.Machine

/-! ## Legal outcomes -/

/-- The code and message of a local failure are one of R242's pairs. -/
theorem code_msg_of_local {e : Ending} (cfg : Config) (c : Word) (m : BitVec 4)
    (h : e.kind = .localFailure) :
    ((e.code cfg).getD c = 0xFFFF ∧ e.msg.getD m = 12) ∨
      ((e.code cfg).getD c = 0xFFFE ∧ e.msg.getD m = 13) ∨
      ((e.code cfg).getD c = 0xFFFD ∧ e.msg.getD m = 14) ∨
      ((e.code cfg).getD c = cfg.argCountCode ∧ e.msg.getD m = 15) := by
  match e, h with
  | .fail .tooShort, _ => exact .inl ⟨rfl, rfl⟩
  | .fail .checkFails, _ => exact .inr (.inl ⟨rfl, rfl⟩)
  | .fail .illegalErrorCode, _ => exact .inr (.inr (.inl ⟨rfl, rfl⟩))
  | .fail .argCount, _ => exact .inr (.inr (.inr ⟨rfl, rfl⟩))

theorem eq_deviceException_of_kind {e : Ending} (h : e.kind = .device) :
    ∃ x, e = .fail (.deviceException x) := by
  match e, h with
  | .fail (.deviceException x), _ => exact ⟨x, rfl⟩

theorem no_captures_of_kind {e : Ending} (h : e.kind = .ok ∨ e.kind = .refused) :
    e.reqCap = false ∧ e.rspCap = false := by
  match e, h with
  | .ok _, _ | .handleOk, _ | .refused _, _ => exact ⟨rfl, rfl⟩

theorem reason_bits_legal {r : Reason} (h : r ≠ .busyStart) : r.bits ≠ 0 ∧ r.bits ≠ 7 := by
  cases r
  case busyStart => exact absurd rfl h
  all_goals decide

/-- Any outcome but BusyStart is written legally (R218). -/
theorem outcomeLegal_finish {e : Ending} (s : State) (hb : e ≠ .refused .busyStart) :
    OutcomeLegal (finish e s) where
  localCode _ := code_msg_of_local _ _ _
  deviceCode _ hk := by
    obtain ⟨x, rfl⟩ := eq_deviceException_of_kind hk
    exact ⟨x, rfl, rfl⟩
  refuseReason _ hk := by
    obtain ⟨r, rfl⟩ := eq_refused_of_kind hk
    exact reason_bits_legal fun hr => hb (hr ▸ rfl)
  captures _ := no_captures_of_kind
  noBusyStart := nofun

/-- Where no outcome is present nothing is asked of the registers. -/
theorem outcomeLegal_of_invalid {s : State} (hv : s.resValid = false)
    (hb : s.pending ≠ .ending (.refused .busyStart)) : OutcomeLegal s := by
  constructor <;> simp [hv, hb]

/-- An outcome that is met leaves the registers alone until it is written (R246). -/
theorem outcomeLegal_endWith {e : Ending} {s : State} (ho : OutcomeLegal s)
    (hb : e ≠ .refused .busyStart) : OutcomeLegal (endWith e s) :=
  { ho with noBusyStart := fun h => hb (Pending.ending.inj h) }

theorem outcomeLegal_hostAction {e : HostEvent} {s t : State} (ho : OutcomeLegal s)
    (h : (hostAction e s).result = .next t) : OutcomeLegal t := by
  rcases hostAction_cases h with ⟨w, -, ⟨-, rfl⟩ | ⟨-, hw⟩⟩ | ⟨-, rfl⟩ |
    ⟨_, _, _, -, rfl | ⟨-, _, rfl⟩⟩ | ⟨_, -, rfl⟩ |
    ⟨_, -, ⟨-, rfl⟩ | ⟨-, -, rfl⟩ | ⟨p, hk, -, rfl⟩⟩
  · exact ho
  · rw [putReg_frame hw]
    exact { ho with }
  · exact outcomeLegal_of_invalid rfl nofun
  · exact ho
  · exact { ho with }
  · exact { ho with }
  · exact ho
  · exact outcomeLegal_of_invalid rfl ho.noBusyStart
  · rcases hk with ⟨-, rfl⟩ | ⟨-, rfl⟩ <;> exact outcomeLegal_of_invalid rfl nofun

/-- Settles O5: an outcome is written by `finish` only, and none that is met is BusyStart. -/
theorem stepKeepsOutcomeLegal : Obligations.StepKeepsOutcomeLegal := by
  intro s t ho h
  rcases step_cases h with ⟨e, rest, -, h⟩ |
    ⟨-, ⟨-, rfl⟩ | ⟨-, h⟩ | ⟨-, h⟩ | ⟨-, h⟩ | ⟨-, h⟩ | ⟨-, h⟩⟩
  · exact outcomeLegal_hostAction (s := { s with hostIn := rest }) { ho with } h
  · exact ho
  · rcases encodeAction_cases h with ⟨e, he, rfl⟩ | ⟨_, _, -, -, -, -, rfl⟩
    · refine outcomeLegal_endWith ho ?_
      rintro rfl
      simp [requestEndings] at he
    · rw [storeFrame_eq]
      exact { ho with }
  · rcases sendStep_cases h with ⟨-, rfl⟩ | ⟨_, _, -, ⟨-, rfl⟩ | ⟨_, -, rfl⟩⟩
    · exact ho
    · exact { ho with }
    · exact outcomeLegal_endWith { ho with } nofun
  · rcases receiveStep_cases s with ⟨-, hr⟩ | ⟨_, _, -, hr⟩ | ⟨_, _, -, -, hr⟩ | ⟨_, _, -, -, hr⟩ <;>
      rw [hr] at h <;> cases h
    · exact ho
    · exact outcomeLegal_endWith { ho with } nofun
    · exact outcomeLegal_endWith { ho with } nofun
    · exact { ho with }
  · obtain ⟨e, c, he, rfl⟩ := validateAction_cases h
    refine outcomeLegal_endWith { ho with } ?_
    rintro rfl
    cases he
  · rcases doneStep_cases h with ⟨e, he, rfl⟩ |
      ⟨_, _, -, ⟨-, rfl⟩ | ⟨_, -, rfl⟩ | ⟨_, _, -, rfl⟩⟩
    · exact outcomeLegal_finish s fun hb => ho.noBusyStart (hb ▸ he)
    · exact ho
    · exact outcomeLegal_finish _ nofun
    · exact outcomeLegal_finish _ nofun

/-! ## The order of the phases -/

@[simp] theorem phaseStep_self (p : Phase) : phaseStep p p = true := by cases p <;> rfl

theorem phaseStep_hostAction {e : HostEvent} {s t : State} (hr : e ≠ .rst)
    (h : (hostAction e s).result = .next t) : phaseStep s.phase t.phase = true := by
  rcases hostAction_cases h with ⟨w, -, ⟨-, rfl⟩ | ⟨-, hw⟩⟩ | ⟨rfl, -⟩ |
    ⟨_, _, _, -, rfl | ⟨-, _, rfl⟩⟩ | ⟨_, -, rfl⟩ |
    ⟨_, -, ⟨-, rfl⟩ | ⟨-, hp, rfl⟩ | ⟨p, hk, hp, rfl⟩⟩
  · exact phaseStep_self _
  · rw [putReg_frame hw]
    exact phaseStep_self _
  · exact absurd rfl hr
  · exact phaseStep_self _
  · exact phaseStep_self _
  · exact phaseStep_self _
  · exact phaseStep_self _
  · rw [hp]
    rfl
  · rw [hp]
    rfl

/-- Settles O8: a host event that is not `rst` leaves PHASE or begins an operation in IDLE, and SEQ's own
step leads from each phase to the next, to DONE, or back to waiting. -/
theorem phaseAdvancesOnlyForward : Obligations.PhaseAdvancesOnlyForward := by
  intro s t h hr
  rcases step_cases h with ⟨e, rest, hl, h⟩ |
    ⟨-, ⟨-, rfl⟩ | ⟨hp, h⟩ | ⟨hp, h⟩ | ⟨hp, h⟩ | ⟨hp, h⟩ | ⟨hp, h⟩⟩
  · exact phaseStep_hostAction (s := { s with hostIn := rest }) (fun he => hr rest (he ▸ hl)) h
  · exact phaseStep_self _
  · rcases encodeAction_cases h with ⟨_, -, rfl⟩ | ⟨_, _, -, -, -, -, rfl⟩
    · rw [hp]
      rfl
    · rw [storeFrame_eq, hp]
      rfl
  · rcases sendStep_cases h with ⟨-, rfl⟩ | ⟨_, _, -, ⟨-, rfl⟩ | ⟨_, -, rfl⟩⟩ <;> rw [hp] <;> rfl
  · rcases receiveStep_cases s with ⟨-, hr⟩ | ⟨_, _, -, hr⟩ | ⟨_, _, -, -, hr⟩ | ⟨_, _, -, -, hr⟩ <;>
      rw [hr] at h <;> cases h <;> rw [hp] <;> rfl
  · obtain ⟨_, _, -, rfl⟩ := validateAction_cases h
    rw [hp]
    rfl
  · rcases doneStep_cases h with ⟨_, -, rfl⟩ |
      ⟨_, _, -, ⟨-, rfl⟩ | ⟨_, -, rfl⟩ | ⟨_, _, -, rfl⟩⟩ <;> rw [hp] <;> rfl

end Sys2Proof.Machine
end

section
/-! PROOFS. XOPEN (10_state.md R30): which step changes it, and that no step reads it. -/

namespace Sys2Proof.Machine

/-! ## Who changes the handle bit -/

theorem xopen_hostAction {e : HostEvent} {s t : State} (hr : e ≠ .rst)
    (h : (hostAction e s).result = .next t) : t.xopen = s.xopen := by
  rcases hostAction_cases h with ⟨w, -, ⟨-, rfl⟩ | ⟨-, hw⟩⟩ | ⟨rfl, -⟩ |
    ⟨_, _, _, -, rfl | ⟨-, _, rfl⟩⟩ | ⟨_, -, rfl⟩ |
    ⟨_, -, ⟨-, rfl⟩ | ⟨-, -, rfl⟩ | ⟨_, -, -, rfl⟩⟩
  · rfl
  · rw [putReg_frame hw]
  · exact absurd rfl hr
  all_goals rfl

/-- DONE sets the handle bit on the answer `Ok` to `open` and clears it on the one to `close`. -/
theorem xopen_doneStep {s t : State} (h : doneStep s = .next t) :
    t.xopen = s.xopen ∨ (s.lineAns.head? = some .ok ∧
      ((s.pending = .opening ∧ t.xopen = true) ∨ (s.pending = .closing ∧ t.xopen = false))) := by
  rcases doneStep_cases h with ⟨_, -, rfl⟩ | ⟨_, up, hc, ⟨-, rfl⟩ | ⟨_, hl, rfl⟩ | ⟨_, _, -, rfl⟩⟩
  · exact .inl rfl
  · exact .inl rfl
  · refine .inr ⟨by rw [hl]; rfl, ?_⟩
    rcases hc with ⟨hp, -, rfl⟩ | ⟨hp, -, rfl⟩
    · exact .inl ⟨hp, rfl⟩
    · exact .inr ⟨hp, rfl⟩
  · exact .inl rfl

theorem step_xopen {s t : State} (h : step s = .next t) (hr : ∀ rest, ¬ lands .rst rest s) :
    t.xopen = s.xopen ∨ (s.phase = .done ∧ s.lineAns.head? = some .ok ∧
      ((s.pending = .opening ∧ t.xopen = true) ∨ (s.pending = .closing ∧ t.xopen = false))) := by
  rcases step_cases h with ⟨e, rest, hl, h⟩ |
    ⟨-, ⟨-, rfl⟩ | ⟨-, h⟩ | ⟨-, h⟩ | ⟨-, h⟩ | ⟨-, h⟩ | ⟨hp, h⟩⟩
  · exact .inl (xopen_hostAction (s := { s with hostIn := rest }) (fun he => hr rest (he ▸ hl)) h)
  · exact .inl rfl
  · rcases encodeAction_cases h with ⟨_, -, rfl⟩ | ⟨_, _, -, -, -, -, rfl⟩
    · exact .inl rfl
    · rw [storeFrame_eq]
      exact .inl rfl
  · rcases sendStep_cases h with ⟨-, rfl⟩ | ⟨_, _, -, ⟨-, rfl⟩ | ⟨_, -, rfl⟩⟩ <;> exact .inl rfl
  · rcases receiveStep_cases s with ⟨-, hr⟩ | ⟨_, _, -, hr⟩ | ⟨_, _, -, -, hr⟩ | ⟨_, _, -, -, hr⟩ <;>
      rw [hr] at h <;> cases h <;> exact .inl rfl
  · obtain ⟨_, _, -, rfl⟩ := validateAction_cases h
    exact .inl rfl
  · exact (xopen_doneStep h).imp_right fun hx => ⟨hp, hx⟩

/-! ## What does not read it -/

/-- The state with this value of the handle bit. -/
def State.withXopen (up : Bool) (s : State) : State := { s with xopen := up }

section
variable (up : Bool)

@[simp] theorem withXopen_cfg (s : State) : (s.withXopen up).cfg = s.cfg := rfl

@[simp] theorem withXopen_crc (s : State) : (s.withXopen up).crc = s.crc := rfl

@[simp] theorem withXopen_reqFn (s : State) : (s.withXopen up).reqFn = s.reqFn := rfl

@[simp] theorem withXopen_reqRaw (s : State) : (s.withXopen up).reqRaw = s.reqRaw := rfl

@[simp] theorem withXopen_rxLen (s : State) : (s.withXopen up).rxLen = s.rxLen := rfl

@[simp] theorem withXopen_phase (s : State) : (s.withXopen up).phase = s.phase := rfl

@[simp] theorem withXopen_pending (s : State) : (s.withXopen up).pending = s.pending := rfl

@[simp] theorem withXopen_commandOperands (s : State) :
    commandOperands (s.withXopen up) = commandOperands s := rfl

@[simp] theorem withXopen_memReadByte (sp : Space) (a : Nat) (s : State) :
    memReadByte sp a (s.withXopen up) = memReadByte sp a s :=
  memReadByte_congr (by cases sp <;> rfl) (by cases sp <;> rfl) a

@[simp] theorem withXopen_memReadBytes (sp : Space) (a n : Nat) (s : State) :
    memReadBytes sp a n (s.withXopen up) = memReadBytes sp a n s :=
  memReadBytes_congr (by cases sp <;> rfl) (by cases sp <;> rfl) a n

@[simp] theorem withXopen_memReadBe16 (sp : Space) (a : Nat) (s : State) :
    memReadBe16 sp a (s.withXopen up) = memReadBe16 sp a s := by
  simp [memReadBe16]

@[simp] theorem withXopen_memReadLe16 (sp : Space) (a : Nat) (s : State) :
    memReadLe16 sp a (s.withXopen up) = memReadLe16 sp a s := by
  simp [memReadLe16]

@[simp] theorem withXopen_memReadWords (sp : Space) (a n : Nat) (s : State) :
    memReadWords sp a n (s.withXopen up) = memReadWords sp a n s := by
  induction n generalizing a with
  | zero => rfl
  | succ n ih => simp [memReadWords, ih]

@[simp] theorem withXopen_txFrame (s : State) : txFrame (s.withXopen up) = txFrame s :=
  txFrame_congr rfl rfl

@[simp] theorem withXopen_rxFrame (s : State) : rxFrame (s.withXopen up) = rxFrame s :=
  rxFrame_congr rfl rfl

/-- The operation does not read the handle bit: with another value it answers the same state, but for
that value. -/
def IgnoresXopen (op : State → StepResult) : Prop :=
  ∀ s, op (s.withXopen up) = mapNext (State.withXopen up) (op s)

/-! ### Shared operations -/

@[simp] theorem layoutMismatch_withXopen (s : State) :
    layoutMismatch (s.withXopen up) = mapNext (State.withXopen up) (layoutMismatch s) := rfl

@[simp] theorem okWith_withXopen (r : Result) (s : State) :
    okWith r (s.withXopen up) = mapNext (State.withXopen up) (okWith r s) := rfl

@[simp] theorem crcOver_withXopen (bytes : List Byte) (s : State) :
    crcOver bytes (s.withXopen up) = (crcOver bytes s).withXopen up := by
  rw [crcOver_eq, crcOver_eq]
  rfl

theorem emit_ignoresXopen (n : Nat) (body : List Byte) : IgnoresXopen up (emit n body) := fun s => by
  have hs : storeFrame body (s.withXopen up) = (storeFrame body s).withXopen up := by
    rw [storeFrame_eq, storeFrame_eq]
    rfl
  unfold emit
  rw [mapNext_ite, mapNext_next, mapNext_next, ← hs]
  rfl

theorem onCrcPort_ignoresXopen {op : State → State}
    (hop : ∀ s : State, op (s.withXopen up) = (op s).withXopen up) :
    IgnoresXopen up (onCrcPort op) := fun s => by
  unfold onCrcPort
  rw [mapNext_ite, mapNext_next, mapNext_next, ← hop]
  rfl

theorem beginHandle_ignoresXopen (p : Pending) : IgnoresXopen up (beginHandle p) := fun s => by
  unfold beginHandle
  rw [mapNext_ite]
  rfl

/-! ### Rows of the table -/

theorem decodeRaw_ignoresXopen : IgnoresXopen up decodeRaw := fun s => by simp [decodeRaw]

theorem decodeBits_ignoresXopen : IgnoresXopen up decodeBits := fun s => by simp [decodeBits]

theorem decodeRegs_ignoresXopen : IgnoresXopen up decodeRegs := fun s => by simp [decodeRegs]

theorem decodeEcho_ignoresXopen : IgnoresXopen up decodeEcho := fun s => by simp [decodeEcho]

theorem decodeStatus_ignoresXopen : IgnoresXopen up decodeStatus := fun s => by simp [decodeStatus]

theorem decodeCounter_ignoresXopen : IgnoresXopen up decodeCounter := fun s => by simp [decodeCounter]

theorem decodeLog_ignoresXopen : IgnoresXopen up decodeLog := fun s => by simp [decodeLog]

theorem checkedDecode_ignoresXopen {d : State → StepResult} (hd : IgnoresXopen up d) :
    IgnoresXopen up (checkedDecode d) := fun s => by
  have hc (t : State) : endWith (.fail .checkFails) (t.withXopen up) =
      (endWith (.fail .checkFails) t).withXopen up := rfl
  simp [checkedDecode, hc, hd _, decodeRaw_ignoresXopen up _]

/-- No row of the table reads the handle bit. -/
theorem exec_ignoresXopen (i : Instr) : IgnoresXopen up (exec i) := by
  cases i
  case wmc stn start qty coils =>
    intro s
    simp only [exec, execWmc, mapNext_ite, mapNext_next, withXopen_cfg, ← emit_ignoresXopen up _ _ s]
    rfl
  case wmr stn start qty values =>
    intro s
    simp only [exec, execWmr, mapNext_ite, mapNext_next, ← emit_ignoresXopen up _ _ s]
    rfl
  case rcResponse | rdiResponse => exact checkedDecode_ignoresXopen up (decodeBits_ignoresXopen up)
  case rhrResponse | rirResponse => exact checkedDecode_ignoresXopen up (decodeRegs_ignoresXopen up)
  case wscResponse | wsrResponse => exact checkedDecode_ignoresXopen up (decodeEcho_ignoresXopen up)
  case resResponse => exact checkedDecode_ignoresXopen up (decodeStatus_ignoresXopen up)
  case gcecResponse => exact checkedDecode_ignoresXopen up (decodeCounter_ignoresXopen up)
  case gcelResponse => exact checkedDecode_ignoresXopen up (decodeLog_ignoresXopen up)
  case diagResponse | wmcResponse | wmrResponse | rsidResponse =>
    exact checkedDecode_ignoresXopen up (decodeRaw_ignoresXopen up)
  case exceptionResponse =>
    intro s
    simp only [exec, execExceptionResponse, withXopen_memReadByte, mapNext_reading]
    rfl
  case crcInit | crcUpdate | crcHold => exact onCrcPort_ignoresXopen up fun _ => rfl
  case xltLookup => exact fun _ => rfl
  case openLine | closeLine => exact beginHandle_ignoresXopen up _
  all_goals exact emit_ignoresXopen up _ _

/-! ### The step -/

/-- A host event that is not `rst` does not read the handle bit. -/
theorem hostAction_ignoresXopen {e : HostEvent} (h : e ≠ .rst) :
    IgnoresXopen up fun s => (hostAction e s).result := by
  intro s
  cases e with
  | write w =>
    have hw : putReg w (s.withXopen up) = mapNext (State.withXopen up) (putReg w s) := by
      cases w
      case value i x =>
        simp only [putReg, mapNext_ite]
        rfl
      all_goals rfl
    show writeReg w (s.withXopen up) = mapNext _ (writeReg w s)
    rw [writeReg, writeReg, mapNext_ite, ← hw]
    rfl
  | rst => exact absurd rfl h
  | crcPort init en din => exact exec_ignoresXopen up _ s
  | xltPort code => exact exec_ignoresXopen up (.xltLookup code) s
  | command kind =>
    simp only [hostAction]
    split
    · exact exec_ignoresXopen up _ s
    · show hostStart (s.withXopen up) = mapNext _ (hostStart s)
      rw [hostStart, hostStart, mapNext_ite]
      rfl
    · rfl

theorem encodeAction_ignoresXopen : IgnoresXopen up fun s => (encodeAction s).result := by
  intro s
  simp only [encodeAction, withXopen_commandOperands]
  split
  · rfl
  · split
    · exact exec_ignoresXopen up _ s
    · rfl

theorem sendStep_ignoresXopen : IgnoresXopen up sendStep := fun s => by
  unfold sendStep
  match s.lineAns with
  | [] => rfl
  | ans :: rest =>
    simp only [withXopen_txFrame, mapNext_reading]
    cases ans <;> rfl

theorem receiveStep_ignoresXopen : IgnoresXopen up receiveStep := fun s => by
  unfold receiveStep
  match s.readAns with
  | [] | .err _ :: _ => rfl
  | .bytes r :: rest =>
    simp only [withXopen_cfg, mapNext_ite]
    rfl

theorem validateAction_ignoresXopen : IgnoresXopen up fun s => (validateAction s).result := by
  intro s
  simp only [validateAction, withXopen_rxLen, withXopen_reqFn, withXopen_memReadByte]
  split
  · rfl
  · split
    · rfl
    · split
      · exact exec_ignoresXopen up _ s
      · rfl
      · rfl

/-- The answer to `open` or `close` may set the handle bit, and does not read it. -/
theorem handleStep_setsXopen (call : TransportCall) (b : Bool) (s : State) :
    ∃ x, handleStep call b (s.withXopen up) = mapNext (State.withXopen x) (handleStep call b s) := by
  unfold handleStep
  match s.lineAns with
  | [] | .err _ :: _ => exact ⟨up, rfl⟩
  | .ok :: _ => exact ⟨b, rfl⟩

theorem seqAction_setsXopen (s : State) :
    ∃ x, (seqAction (s.withXopen up)).result = mapNext (State.withXopen x) (seqAction s).result := by
  simp only [seqAction, withXopen_phase]
  split
  · exact ⟨up, rfl⟩
  · exact ⟨up, encodeAction_ignoresXopen up s⟩
  · exact ⟨up, sendStep_ignoresXopen up s⟩
  · exact ⟨up, receiveStep_ignoresXopen up s⟩
  · exact ⟨up, validateAction_ignoresXopen up s⟩
  · show ∃ x, doneStep (s.withXopen up) = mapNext (State.withXopen x) (doneStep s)
    unfold doneStep
    rw [withXopen_pending]
    split
    · exact ⟨up, rfl⟩
    · exact handleStep_setsXopen up _ _ s
    · exact handleStep_setsXopen up _ _ s
    · exact ⟨up, rfl⟩

/-- With another handle bit the same event lands, or the same phase takes its step; `rst` clears the bit
whatever it was. -/
theorem step_withXopen (s : State) :
    ∃ x, step (s.withXopen up) = mapNext (State.withXopen x) (step s) := by
  match ha : arriving s with
  | none =>
    rw [step_of_none ha, step_of_none (s := s.withXopen up) ha]
    exact seqAction_setsXopen up s
  | some (e, rest) =>
    have hl : lands e rest s := (arriving_iff_lands s e rest).1 ha
    rw [step_of_lands hl, step_of_lands (s := s.withXopen up) hl]
    by_cases he : e = .rst
    · subst he
      exact ⟨false, rfl⟩
    · exact ⟨up, hostAction_ignoresXopen up he { s with hostIn := rest }⟩

end

/-- Settles O11: only DONE's answers write XOPEN (`step_xopen`), and no operation reads it
(`step_withXopen`). -/
theorem handleBitFollowsTheTransport : Obligations.HandleBitFollowsTheTransport :=
  ⟨fun _ _ => step_xopen, fun s up => step_withXopen up s⟩

end Sys2Proof.Machine
end

section
/-! PROOFS. The command registers (10_state.md R21, R23, R34): nothing moves in IDLE without a command, a
host write lands in its register, and each operation runs on the operands of its own registers. -/

namespace Sys2Proof.Machine

/-! ## IDLE -/

theorem step_idle {s : State} (hp : s.phase = .idle) (h : ∀ e rest, ¬ lands e rest s) :
    step s = .next s := by
  have ha : arriving s = none := by
    match ha : arriving s with
    | none => rfl
    | some (e, rest) => exact absurd ((arriving_iff_lands s e rest).1 ha) (h e rest)
  rw [step_of_none ha, seqAction, hp]
  rfl

/-- Settles O2: without an event IDLE stays as it is, and `cmd_kind = 00` asks for nothing. -/
theorem resetWaitsInIdle : Obligations.ResetWaitsInIdle := by
  refine ⟨rfl, rfl, rfl, rfl, rfl, rfl, rfl, rfl, rfl, rfl, rfl, rfl, rfl, rfl, fun _ => rfl, ?_,
    fun s => step_idle, fun s rest hl => step_of_lands hl⟩
  exact step_idle rfl (by rintro e rest (h | ⟨h, -⟩) <;> cases h)

/-- A host write that lands in IDLE is done as it is (R21). -/
theorem step_write {s : State} {w : RegWrite} {rest : List HostInput} (hp : s.phase = .idle)
    (hl : lands (.write w) rest s) : step s = putReg w { s with hostIn := rest } := by
  rw [step_of_lands hl]
  show writeReg w _ = _
  rw [writeReg, busy, hp]
  rfl

/-- Settles O10: the write lands, and an element written reads back while the others stay. -/
theorem hostWritesOneRegister : Obligations.HostWritesOneRegister := by
  intro s w rest hp hl
  have hstep := step_write hp hl
  cases w
  case value i x =>
    intro hi
    exact ⟨Sparse.write s.v i x, hstep.trans (if_pos hi), sparse_read_write_same _ _ _,
      fun k hk => sparse_read_write_other _ _ hk⟩
  all_goals exact hstep

/-! ## Operands -/

/-- Elements that are all written are the values listed (R23). -/
theorem elements_eq {cap : Nat} {v : ValueFile} {k : Nat} {vals : List Word}
    (hcap : k + vals.length ≤ cap) (hv : ∀ j, j < vals.length → Sparse.read v (k + j) = vals[j]?) :
    elements cap v k vals.length = .ok vals := by
  induction vals generalizing k with
  | nil => rfl
  | cons x xs ih =>
    simp only [List.length_cons] at hcap hv
    have h0 : Sparse.read v k = some x := hv 0 (by omega)
    have hrest : elements cap v (k + 1) xs.length = .ok xs :=
      ih (by omega) fun j hj => by
        rw [show k + 1 + j = k + (j + 1) by omega]
        exact hv (j + 1) (by omega)
    rw [List.length_cons, elements, if_pos (by omega), h0, hrest]

section
variable {s : State} (hp : s.phase = .encode) (hq : quiet s = true)
include hp hq

/-- With the registers it reads written, the operation FN names runs on them (R130 checks 1 and 2). -/
theorem step_command {fn stn : Byte} {raw : Bool} {a b : Word} {vals : List Word} {i : Instr}
    (hstn : s.stn = some stn) (hraw : s.raw = some raw) (ha : operand (readsA fn) s.a = .ok a)
    (hb : operand (readsB fn) s.b = .ok b) (hv : valueOperands (readsValues fn) s = .ok vals)
    (hc : catalogued fn = true) (hd : decodeCommand fn stn a b vals = .ok i) (hfn : s.fn = some fn) :
    step s = exec i s := by
  have hw : commandOperands s = .ok (.command fn stn a b vals) := by
    simp only [commandOperands, hfn, hc, hstn, hraw, ha, hb, hv, if_true]
  simp only [step_encode hp hq, encodeAction, hw, decode, hd]
  rfl

end

/-- Settles O52: a register the operation reads gives its value, one it does not read is not looked at. -/
theorem operandsComeFromTheirRegisters : Obligations.OperandsComeFromTheirRegisters := by
  intro s stn raw hp hq hstn hraw
  refine ⟨fun a b ha hb => ?_, ?_, ?_, ?_, ?_, fun a vals ha hnv hcap hv => ?_⟩
  · have hoa : operand true s.a = .ok a := by rw [ha]; rfl
    have hob : operand true s.b = .ok b := by rw [hb]; rfl
    refine ⟨?_, ?_, ?_, ?_, ?_, ?_⟩ <;> exact step_command hp hq hstn hraw hoa hob rfl rfl rfl
  · exact step_command hp hq hstn hraw rfl rfl rfl rfl rfl
  · exact step_command hp hq hstn hraw rfl rfl rfl rfl rfl
  · exact step_command hp hq hstn hraw rfl rfl rfl rfl rfl
  · exact step_command hp hq hstn hraw rfl rfl rfl rfl rfl
  · have hoa : operand true s.a = .ok a := by rw [ha]; rfl
    have hov : valueOperands true s = .ok vals := by
      simp only [valueOperands, hnv, if_true]
      exact elements_eq (by omega) fun j hj => by simpa using hv j hj
    refine ⟨step_command hp hq hstn hraw hoa rfl hov rfl rfl, fun b hb => ?_⟩
    have hob : operand true s.b = .ok b := by rw [hb]; rfl
    exact ⟨step_command hp hq hstn hraw hoa hob hov rfl rfl,
      step_command hp hq hstn hraw hoa hob hov rfl rfl⟩

end Sys2Proof.Machine
end

section
/-! PROOFS. What the host reads back (10_state.md R26, R29, 44_exchange.md R225, 60_exceptions.md R240,
R246): the views after an outcome is written, and that they stay until the next operation begins. -/

namespace Sys2Proof.Machine

/-! ## After an outcome is written -/

@[simp] theorem txFrame_finish (e : Ending) (s : State) : txFrame (finish e s) = txFrame s :=
  txFrame_congr rfl rfl

@[simp] theorem rxFrame_finish (e : Ending) (s : State) : rxFrame (finish e s) = rxFrame s :=
  rxFrame_congr rfl rfl

/-- The request held in TXB is what the host reads there once the outcome is written (R26). -/
theorem txView_finish (e : Ending) {s : State} {q : List Byte} (h : txFrame s = .ok q) :
    txView (finish e s) = some q := by
  rw [txView, viewOf_readable _ (finish_readable e s), txFrame_finish, h]
  rfl

/-- The response held in RXB is what the host reads there once the outcome is written (R26). -/
theorem rxView_finish (e : Ending) {s : State} {r : List Byte} (h : rxFrame s = .ok r) :
    rxView (finish e s) = some r := by
  rw [rxView, viewOf_readable _ (finish_readable e s), rxFrame_finish, h]
  rfl

/-- A result written is the window on RXB that the latches make of the response (R29). -/
theorem resultView_finish_ok {s : State} {res : Result} {r : List Byte} (h : rxFrame s = .ok r)
    (hv : validateResponse s.reqFn s.reqRaw r = .ok res) : resultView (finish (.ok res) s) = some res := by
  simp [resultView, Ending.kind, h, hv]

/-- The record of a failure written is its row of R218, with the buffers where it captures them
(R240, R246). -/
theorem failureRecord_finish (f : Failure) (s : State) :
    failureRecord (finish (.fail f) s) = some
      { kind := (Ending.fail f).kind
        message := (Ending.fail f).msg
        code := (Ending.fail f).code s.cfg
        request := if (Ending.fail f).reqCap then txView (finish (.fail f) s) else none
        response := if (Ending.fail f).rspCap then rxView (finish (.fail f) s) else none
        cause := (Ending.fail f).cause } := by
  cases f <;> rfl

/-! ## While nothing begins -/

/-- Everything the views of R225 show, and what the result is read from (R29), is the same. -/
structure OutcomeKept (s t : State) : Prop where
  phase : t.phase = s.phase
  valid : t.resValid = s.resValid
  kind : t.resKind = s.resKind
  code : t.resCode = s.resCode
  message : t.resMsg = s.resMsg
  refuse : t.resRefuse = s.resRefuse
  request : t.reqCap = s.reqCap
  response : t.rspCap = s.rspCap
  cause : t.xerr = s.xerr
  handle : t.xopen = s.xopen
  txb : t.txb = s.txb
  txLen : t.txLen = s.txLen
  rxb : t.rxb = s.rxb
  rxLen : t.rxLen = s.rxLen
  latchFn : t.reqFn = s.reqFn
  latchRaw : t.reqRaw = s.reqRaw

section
variable {s t : State} (h : OutcomeKept s t)
include h

theorem OutcomeKept.readable : readable t = readable s := readable_eq h.valid h.phase

theorem OutcomeKept.carriesCode : carriesCode t = carriesCode s := by
  simp [Machine.carriesCode, h.kind]

theorem OutcomeKept.codeView : codeView t = codeView s := by
  rw [Machine.codeView, Machine.codeView, h.carriesCode, viewOf_eq h.readable h.code]

theorem OutcomeKept.msgView : msgView t = msgView s := by
  rw [Machine.msgView, Machine.msgView, h.carriesCode, viewOf_eq h.readable h.message]

theorem OutcomeKept.refuseView : refuseView t = refuseView s := by
  rw [Machine.refuseView, Machine.refuseView, h.kind, viewOf_eq h.readable h.refuse]

theorem OutcomeKept.causeView : causeView t = causeView s := by
  rw [Machine.causeView, Machine.causeView, h.kind, viewOf_eq h.readable h.cause]

theorem OutcomeKept.txView : txView t = txView s := by
  rw [Machine.txView, Machine.txView, viewOf_eq h.readable (txFrame_congr h.txb h.txLen)]

theorem OutcomeKept.rxView : rxView t = rxView s := by
  rw [Machine.rxView, Machine.rxView, viewOf_eq h.readable (rxFrame_congr h.rxb h.rxLen)]

theorem OutcomeKept.failureRecord : failureRecord t = failureRecord s := by
  simp only [Machine.failureRecord, h.readable, h.kind, h.msgView, h.codeView, h.request, h.response,
    h.txView, h.rxView, h.causeView]

theorem OutcomeKept.resultView : resultView t = resultView s := by
  simp only [Machine.resultView, h.readable, h.kind, rxFrame_congr h.rxb h.rxLen, h.latchFn, h.latchRaw]

end

/-- In IDLE a host event that is neither `rst` nor a command touches the command registers, CRC and the
XLT output only (R21, R120, R225). -/
theorem outcomeKept_hostAction {e : HostEvent} {s t : State} (hr : e ≠ .rst)
    (hc : ∀ kind, kind ≠ 0 → e ≠ .command kind) (h : (hostAction e s).result = .next t) :
    OutcomeKept s t := by
  rcases hostAction_cases h with ⟨w, -, ⟨-, rfl⟩ | ⟨-, hw⟩⟩ | ⟨rfl, -⟩ |
    ⟨_, _, _, -, rfl | ⟨-, _, rfl⟩⟩ | ⟨_, -, rfl⟩ |
    ⟨kind, rfl, ⟨-, rfl⟩ | ⟨hk, -, -⟩ | ⟨_, hk, -, -⟩⟩
  · constructor <;> rfl
  · rw [putReg_frame hw]
    constructor <;> rfl
  · exact absurd rfl hr
  · constructor <;> rfl
  · constructor <;> rfl
  · constructor <;> rfl
  · constructor <;> rfl
  · exact absurd rfl (hc kind (by simp [hk]))
  · refine absurd rfl (hc kind ?_)
    rcases hk with ⟨rfl, -⟩ | ⟨rfl, -⟩ <;> decide

theorem outcomeKept_of_idle {s t : State} (hp : s.phase = .idle) (h : step s = .next t)
    (hr : ∀ rest, ¬ lands .rst rest s)
    (hc : ∀ kind rest, kind ≠ 0 → ¬ lands (.command kind) rest s) : OutcomeKept s t := by
  rcases step_cases h with ⟨e, rest, hl, h⟩ | ⟨-, ⟨-, rfl⟩ | ⟨hp', -⟩ | ⟨hp', -⟩ | ⟨hp', -⟩ | ⟨hp', -⟩ |
    ⟨hp', -⟩⟩
  · have hk := outcomeKept_hostAction (s := { s with hostIn := rest }) (fun he => hr rest (he ▸ hl))
      (fun kind h0 he => hc kind rest h0 (he ▸ hl)) h
    exact { hk with }
  · constructor <;> rfl
  all_goals cases hp.symm.trans hp'

/-- Settles O42: the outcome just written is read back from its row of R218 and the buffers, and nothing
that a view shows changes in IDLE before the next operation. -/
theorem outcomeStaysReadable : Obligations.OutcomeStaysReadable := by
  refine ⟨fun s t res hi hp hq he h => ?_, fun s t f q r hp hq he hf hr h => ?_,
    fun s t hp h hr hc => ?_⟩
  · rw [step_ending hp hq he] at h
    cases h
    obtain ⟨r, hr, hv⟩ := hi.resultIsWindow res he
    exact resultView_finish_ok hr hv
  · rw [step_ending hp hq he] at h
    cases h
    exact ⟨_, failureRecord_finish f s, rfl, rfl, rfl, rfl, by rw [txView_finish _ hf],
      by rw [rxView_finish _ hr]⟩
  · have hk := outcomeKept_of_idle hp h hr hc
    have hv := hk.readable
    exact ⟨hk.resultView, hk.failureRecord, viewOf_eq hv hk.kind, hk.codeView, hk.msgView,
      hk.refuseView, viewOf_eq hv hk.request, viewOf_eq hv hk.response, hk.causeView, hk.txView,
      hk.rxView, viewOf_eq hv hk.txLen, viewOf_eq hv hk.rxLen, viewOf_eq hv hk.handle⟩

end Sys2Proof.Machine
end

section
/-! PROOFS. Who writes the command registers, and what faults (10_state.md R21, 20_memory.md R50, R51,
R64): SEQ's own step leaves the registers alone and, from a state with the invariant, always goes on, so
both are left to the host events. -/

namespace Sys2Proof.Machine

/-! ## Who writes the command registers -/

theorem sameCommand_refl (s : State) : sameCommand s s := ⟨rfl, rfl, rfl, rfl, rfl, rfl, rfl⟩

/-- Of the host events only `rst`, and a write in IDLE, touch the command registers. -/
theorem sameCommand_hostAction {e : HostEvent} {s t : State} (h : (hostAction e s).result = .next t) :
    sameCommand s t ∨ e = .rst ∨ (s.phase = .idle ∧ ∃ w, e = .write w) := by
  rcases hostAction_cases h with ⟨w, hw, ⟨-, rfl⟩ | ⟨hp, -⟩⟩ | ⟨hr, -⟩ |
    ⟨_, _, _, -, rfl | ⟨-, _, rfl⟩⟩ | ⟨_, -, rfl⟩ |
    ⟨_, -, ⟨-, rfl⟩ | ⟨-, -, rfl⟩ | ⟨_, -, -, rfl⟩⟩
  · exact .inl (sameCommand_refl _)
  · exact .inr (.inr ⟨hp, w, hw⟩)
  · exact .inr (.inl hr)
  all_goals exact .inl (sameCommand_refl _)

/-- No rule of the block touches the command registers (R64): a step that does is `rst`, or a host write
in IDLE (R21). -/
theorem step_sameCommand {s t : State} (h : step s = .next t) :
    sameCommand s t ∨ (∃ rest, lands .rst rest s) ∨
      (s.phase = .idle ∧ ∃ w rest, lands (.write w) rest s) := by
  rcases step_cases h with ⟨e, rest, hl, h⟩ |
    ⟨-, ⟨-, rfl⟩ | ⟨-, h⟩ | ⟨-, h⟩ | ⟨-, h⟩ | ⟨-, h⟩ | ⟨-, h⟩⟩
  · rcases sameCommand_hostAction h with hs | rfl | ⟨hp, w, rfl⟩
    · exact .inl hs
    · exact .inr (.inl ⟨rest, hl⟩)
    · exact .inr (.inr ⟨hp, w, rest, hl⟩)
  · exact .inl (sameCommand_refl _)
  · rcases encodeAction_cases h with ⟨_, -, rfl⟩ | ⟨_, _, -, -, -, -, rfl⟩
    · exact .inl (sameCommand_refl _)
    · rw [storeFrame_eq]
      exact .inl (sameCommand_refl _)
  · rcases sendStep_cases h with ⟨-, rfl⟩ | ⟨_, _, -, ⟨-, rfl⟩ | ⟨_, -, rfl⟩⟩ <;>
      exact .inl (sameCommand_refl _)
  · rcases receiveStep_cases s with ⟨-, hr⟩ | ⟨_, _, -, hr⟩ | ⟨_, _, -, -, hr⟩ | ⟨_, _, -, -, hr⟩ <;>
      rw [hr] at h <;> cases h <;> exact .inl (sameCommand_refl _)
  · obtain ⟨_, _, -, rfl⟩ := validateAction_cases h
    exact .inl (sameCommand_refl _)
  · rcases doneStep_cases h with ⟨_, -, rfl⟩ |
      ⟨_, _, -, ⟨-, rfl⟩ | ⟨_, -, rfl⟩ | ⟨_, _, -, rfl⟩⟩ <;> exact .inl (sameCommand_refl _)

/-- Settles O9: each premise excludes the two ways `step_sameCommand` leaves to touch a register. -/
theorem onlyTheHostWritesCommandRegisters : Obligations.OnlyTheHostWritesCommandRegisters := by
  intro s t h
  rcases step_sameCommand h with hs | ⟨rest, hl⟩ | ⟨hi, w, rest, hl⟩
  · exact ⟨fun _ => hs, fun _ _ => hs⟩
  · exact ⟨fun ⟨_, hr⟩ => absurd hl (hr rest), fun hr => absurd hl (hr rest)⟩
  · exact ⟨fun ⟨hw, _⟩ => absurd hl (hw w rest), fun _ hp => absurd hi hp⟩

/-! ## Host events that fault -/

/-- The only write that faults names an element of V that does not exist (R50). -/
theorem putReg_fault {w : RegWrite} {s : State} {f : Fault} (h : putReg w s = .fault f) :
    ∃ i x, w = .value i x ∧ s.cfg.nvMax ≤ i ∧ f = .noSuchElement i := by
  cases w
  case value i x =>
    simp only [putReg] at h
    split at h
    · cases h
    · next hi =>
      cases h
      exact ⟨i, x, rfl, Nat.le_of_not_lt hi, rfl⟩
  all_goals cases h

theorem writeReg_fault {w : RegWrite} {s : State} {f : Fault} (h : writeReg w s = .fault f) :
    s.phase = .idle ∧ putReg w s = .fault f := by
  unfold writeReg busy at h
  split at h
  · cases h
  · next hb => exact ⟨by simpa using hb, h⟩

theorem onCrcPort_ne_fault (op : State → State) (s : State) (f : Fault) :
    onCrcPort op s ≠ .fault f := by
  rw [onCrcPort_eq]
  nofun

theorem beginHandle_ne_fault (p : Pending) (s : State) (f : Fault) : beginHandle p s ≠ .fault f := by
  rw [beginHandle_eq]
  split <;> nofun

theorem hostStart_ne_fault (s : State) (f : Fault) : hostStart s ≠ .fault f := by
  unfold hostStart
  split <;> nofun

/-- Of the host events only a register write faults. -/
theorem hostAction_fault {e : HostEvent} {s : State} {f : Fault} (h : (hostAction e s).result = .fault f) :
    ∃ w, e = .write w ∧ writeReg w s = .fault f := by
  cases e with
  | write w => exact ⟨w, rfl, h⟩
  | rst => cases h
  | crcPort init en din =>
    cases init <;> cases en <;> exact absurd h (onCrcPort_ne_fault _ s f)
  | xltPort c => cases h
  | command kind =>
    have hk : ∀ k : BitVec 2, k = 0 ∨ k = 1 ∨ k = 2 ∨ k = 3 := by decide
    rcases hk kind with rfl | rfl | rfl | rfl
    · cases h
    · exact absurd h (hostStart_ne_fault s f)
    · exact absurd h (beginHandle_ne_fault .opening s f)
    · exact absurd h (beginHandle_ne_fault .closing s f)

/-! ## SEQ's own step goes on -/

theorem emit_goesOn (n : Nat) (body : List Byte) (s : State) : ∃ t, emit n body s = .next t := by
  rcases emit_cases n body s with ⟨-, h⟩ | ⟨-, -, h⟩ <;> exact ⟨_, h⟩

/-- A request row reads no buffer, so it always goes on. -/
theorem request_goesOn {i : Instr} {fn : Byte} (hi : requestFn i = some fn) (s : State) :
    ∃ t, exec i s = .next t := by
  cases i <;> simp only [requestFn, reduceCtorEq] at hi
  case wmc stn start qty coils =>
    simp only [exec, execWmc]
    split
    · exact ⟨_, rfl⟩
    · split
      · exact ⟨_, rfl⟩
      · split
        · exact ⟨_, rfl⟩
        · exact emit_goesOn _ _ s
  case wmr stn start qty values =>
    simp only [exec, execWmr]
    split
    · exact ⟨_, rfl⟩
    · split
      · exact ⟨_, rfl⟩
      · exact emit_goesOn _ _ s
  all_goals exact emit_goesOn _ _ s

theorem encodeAction_goesOn (s : State) : ∃ t, (encodeAction s).result = .next t := by
  unfold encodeAction
  match hc : commandOperands s with
  | .error r => exact ⟨_, rfl⟩
  | .ok w =>
    obtain ⟨fn, i, -, -, hd, hi⟩ := decode_commandOperands hc
    simp only [hd]
    exact request_goesOn hi s

theorem sendStep_goesOn {s : State} {q : List Byte} (hq : txFrame s = .ok q) :
    ∃ t, sendStep s = .next t := by
  unfold sendStep
  match s.lineAns with
  | [] => exact ⟨_, rfl⟩
  | .ok :: _ | .err _ :: _ => rw [hq]; exact ⟨_, rfl⟩

theorem receiveStep_goesOn (s : State) : ∃ t, receiveStep s = .next t := by
  rcases receiveStep_cases s with ⟨-, h⟩ | ⟨_, _, -, h⟩ | ⟨_, _, -, -, h⟩ | ⟨_, _, -, -, h⟩ <;>
    exact ⟨_, h⟩

theorem handleStep_goesOn (call : TransportCall) (up : Bool) (s : State) :
    ∃ t, handleStep call up s = .next t := by
  unfold handleStep
  match s.lineAns with
  | [] | .ok :: _ | .err _ :: _ => exact ⟨_, rfl⟩

theorem doneStep_goesOn {s : State} (h : s.pending ≠ .nothing) : ∃ t, doneStep s = .next t := by
  unfold doneStep
  match hp : s.pending with
  | .nothing => exact absurd hp h
  | .opening | .closing => exact handleStep_goesOn _ _ s
  | .ending e => exact ⟨_, rfl⟩

/-- From a state with the invariant SEQ's own step always goes on: the request is held when it is sent
(R26), the response is held and its row exists when it is judged (R25, R51), and DONE has something to
do (R27). -/
theorem seqAction_goesOn {s : State} (hi : Inv s) : ∃ t, (seqAction s).result = .next t := by
  unfold seqAction
  match hp : s.phase with
  | .idle => exact ⟨_, rfl⟩
  | .encode => exact encodeAction_goesOn s
  | .send =>
    obtain ⟨q, hq, -⟩ := hi.frameOut (by simp [hp, Phase.requestOut])
    exact sendStep_goesOn hq
  | .receive => exact receiveStep_goesOn s
  | .validate =>
    obtain ⟨r, hr⟩ := exists_rxFrame hi
    exact ⟨_, validateAction_eq hr (hi.latchCatalogued (by simp [hp, Phase.requestOut]))⟩
  | .done => exact doneStep_goesOn fun hn => hi.pendingInDone.1 hn hp

/-- Settles O6: SEQ's own step goes on, so a fault is a host event's, and that is a write to a missing
element. -/
theorem onlyMissingElementsFault : Obligations.OnlyMissingElementsFault := by
  intro s f hi h
  match ha : arriving s with
  | none =>
    obtain ⟨t, ht⟩ := seqAction_goesOn hi
    rw [step_of_none ha, ht] at h
    cases h
  | some (e, rest) =>
    have hl : lands e rest s := (arriving_iff_lands s e rest).1 ha
    rw [step_of_lands hl] at h
    obtain ⟨w, rfl, hw⟩ := hostAction_fault h
    obtain ⟨hp, hput⟩ := writeReg_fault hw
    obtain ⟨i, x, rfl, hle, hf⟩ := putReg_fault hput
    exact ⟨i, x, rest, hf, hle, hp, hl⟩

end Sys2Proof.Machine
end

section
/-! PROOFS. Fields of a frame read back (00_scope.md R11, 20_memory.md R53): a 16-bit field, and a
sequence of them, is determined by its big-endian bytes. -/

namespace Sys2Proof

@[simp] theorem joinBytes_hiByte_loByte (w : Word) : joinBytes (hiByte w) (loByte w) = w := by
  ext k hk
  by_cases h8 : k < 8
  · simp [joinBytes, hiByte, loByte, h8, BitVec.getLsbD_eq_getElem hk]
  · simp [joinBytes, hiByte, loByte, h8, show k - 8 < 8 by omega, show 8 + (k - 8) = k by omega, hk]

@[simp] theorem hiByte_joinBytes (hi lo : Byte) : hiByte (joinBytes hi lo) = hi := by
  ext k hk
  simp [joinBytes, hiByte, hk, show 8 + k < 16 by omega]

@[simp] theorem loByte_joinBytes (hi lo : Byte) : loByte (joinBytes hi lo) = lo := by
  ext k hk
  simp [joinBytes, loByte]

@[simp] theorem be16_joinBytes (hi lo : Byte) : be16 (joinBytes hi lo) = [hi, lo] := by
  simp [be16]

/-- Every field has a high and a low byte. -/
theorem exists_eq_joinBytes (w : Word) : ∃ hi lo, w = joinBytes hi lo :=
  ⟨hiByte w, loByte w, (joinBytes_hiByte_loByte w).symm⟩

/-- The bytes of a sequence of fields read back as it, and no other bytes do. -/
theorem wordsOf_eq_some_iff {bytes : List Byte} {ws : List Word} :
    wordsOf bytes = some ws ↔ be16s ws = bytes := by
  constructor
  · intro h
    induction bytes using wordsOf.induct generalizing ws with
    | case1 => cases h; rfl
    | case2 => cases h
    | case3 hi lo rest ih =>
      obtain ⟨ws', hws, rfl⟩ := Option.map_eq_some_iff.1 h
      simp [be16s, ih hws]
  · rintro rfl
    induction ws with
    | nil => rfl
    | cons w ws ih => simp [be16s, be16, wordsOf, ih]

end Sys2Proof
end

section
/-! PROOFS. Coil data of Write Multiple Coils (30_encoding.md R84, 41_encode.md R142, R143): which bit of
which byte a coil is, in the table's format, in what the encoder builds and in what the reader makes of
it. -/

namespace Sys2Proof

/-! ## The packed format -/

section
variable {cs : List Word}

/-- Bit `k` of a packed byte is coil `k`, 0 where there is none. -/
theorem getLsbD_packBits (hc : ∀ c ∈ cs, c = 0 ∨ c = 1) {k : Nat} (hk : k < 8) :
    (packBits cs).getLsbD k = decide (cs[k]? = some 1) := by
  induction cs generalizing k with
  | nil => simp [packBits]
  | cons c cs ih =>
    cases k with
    | zero => rcases hc c (by simp) with rfl | rfl <;> simp [packBits, loByte]
    | succ k =>
      have hrest := ih (fun c hm => hc c (by simp [hm])) (show k < 8 by omega)
      rw [BitVec.getLsbD_eq_getElem (show k < 8 by omega)] at hrest
      simp [packBits, hk, hrest]

@[simp] theorem length_packBytes (n : Nat) (cs : List Word) : (packBytes n cs).length = n := by
  induction n generalizing cs with
  | zero => rfl
  | succ n ih => simp [packBytes, ih]

theorem getElem?_packBytes {n j : Nat} (hj : j < n) (cs : List Word) :
    (packBytes n cs)[j]? = some (packBits ((cs.drop (8 * j)).take 8)) := by
  induction n generalizing j cs with
  | zero => cases hj
  | succ n ih =>
    cases j with
    | zero => rfl
    | succ j => simp [packBytes, ih (show j < n by omega), Nat.mul_add, Nat.add_comm]

/-- Bit `k` of byte `j` is coil `8j + k` (R84 (e)). -/
theorem getLsbD_packBytes (hc : ∀ c ∈ cs, c = 0 ∨ c = 1) {n j k : Nat} (hj : j < n) (hk : k < 8) :
    ((packBytes n cs).getD j 0).getLsbD k = decide (cs[8 * j + k]? = some 1) := by
  have hpart : ∀ c ∈ (cs.drop (8 * j)).take 8, c = 0 ∨ c = 1 := fun c hm =>
    hc c (List.mem_of_mem_drop (List.mem_of_mem_take hm))
  rw [List.getD_eq_getElem?_getD, getElem?_packBytes hj, Option.getD_some, getLsbD_packBits hpart hk]
  simp [hk]

end

/-- In `packed` mode a coil argument is 0 or 1 (R143). -/
theorem coilInRange_packed_iff {c : Word} : coilInRange .packed c = true ↔ c = 0 ∨ c = 1 := by
  simp [coilInRange]

/-! ## The reader -/

/-- Coil `m` of the reader is bit `m mod 8` of byte `m div 8`. -/
theorem getElem?_flatMap_unpackByte (data : List Byte) (m : Nat) :
    (data.flatMap unpackByte)[m]? =
      data[m / 8]?.map fun b => if b.getLsbD (m % 8) then 1 else 0 := by
  induction data generalizing m with
  | nil => simp
  | cons b rest ih =>
    rw [List.flatMap_cons]
    by_cases hm : m < 8
    · rw [List.getElem?_append_left (by simpa [unpackByte] using hm), Nat.div_eq_of_lt hm,
        Nat.mod_eq_of_lt hm]
      have hall : ∀ m < 8, [0, 1, 2, 3, 4, 5, 6, 7][m]? = some m := by decide
      rw [unpackByte, List.getElem?_map, hall m hm]
      rfl
    · rw [List.getElem?_append_right (by simpa [unpackByte] using hm), ih]
      have h8 : (unpackByte b).length = 8 := rfl
      rw [h8, show m / 8 = (m - 8) / 8 + 1 by omega, show m % 8 = (m - 8) % 8 by omega]
      rfl

/-- Coil values the mode admits read back from the data made of them (R142, R143). -/
theorem coilsOf_coilData {mode : WmcMode} {qty : Word} {cs : List Word} (hl : cs.length = qty.toNat)
    (hc : ∀ c ∈ cs, coilInRange mode c = true) : coilsOf mode qty (coilData mode qty cs) = cs := by
  cases mode with
  | literal =>
    have hback : ∀ c ∈ cs, (loByte c).setWidth 16 = c := fun c hm => by
      have hlt : c.toNat < 256 := of_decide_eq_true (hc c hm)
      exact BitVec.eq_of_toNat_eq (by simp [loByte]; omega)
    exact (List.map_map ..).trans ((List.map_congr_left hback).trans (List.map_id' cs))
  | packed =>
    have hbit : ∀ c ∈ cs, c = 0 ∨ c = 1 := fun c hm => coilInRange_packed_iff.1 (hc c hm)
    refine List.ext_getElem? fun m => ?_
    simp only [coilsOf, coilData, List.getElem?_take, getElem?_flatMap_unpackByte]
    split
    · next hm =>
      have hj : m / 8 < (qty.toNat + 7) / 8 := by omega
      have hget := getLsbD_packBytes hbit hj (show m % 8 < 8 by omega)
      rw [List.getD_eq_getElem?_getD, getElem?_packBytes hj, Option.getD_some,
        show 8 * (m / 8) + m % 8 = m by omega, List.getElem?_eq_getElem (by omega)] at hget
      rw [getElem?_packBytes hj, Option.map_some, hget, List.getElem?_eq_getElem (by omega)]
      rcases hbit _ (List.getElem_mem (show m < cs.length by omega)) with h | h <;> simp [h]
    · exact (List.getElem?_eq_none (by omega)).symm

/-- What the reader makes of coil data is a sequence of values the mode admits. -/
theorem coilInRange_of_mem_coilsOf {mode : WmcMode} {qty c : Word} {data : List Byte}
    (h : c ∈ coilsOf mode qty data) : coilInRange mode c = true := by
  cases mode with
  | packed =>
    obtain ⟨b, -, hb⟩ := List.mem_flatMap.1 (List.mem_of_mem_take h)
    obtain ⟨k, -, rfl⟩ := List.mem_map.1 hb
    cases b.getLsbD k <;> rfl
  | literal =>
    obtain ⟨b, -, rfl⟩ := List.mem_map.1 h
    simp only [coilInRange, decide_eq_true_eq, BitVec.toNat_setWidth]
    omega

end Sys2Proof

namespace Sys2Proof.Machine

/-! ## The encoder -/

/-- The encoder rejects a coil exactly where it is out of the mode's range (R143). -/
theorem badCoil_eq_not_coilInRange (mode : WmcMode) (c : Word) :
    badCoil mode c = !coilInRange mode c := by
  cases mode with
  | literal =>
    show (decide (256 ≤ c.toNat) || false) = !decide (c.toNat < 256)
    simp [← decide_not]
  | packed =>
    by_cases h0 : c = 0#16
    · subst h0; rfl
    by_cases h1 : c = 1#16
    · subst h1; rfl
    rw [Bool.eq_iff_iff]
    simp [badCoil, coilInRange, h0, h1]

@[simp] theorem length_orCoils (cs : List Word) (i : Nat) (data : List Byte) :
    (orCoils cs i data).length = data.length := by
  induction cs generalizing i data with
  | nil => rfl
  | cons c cs ih => simp [orCoils, ih]

/-- Adding a coil to byte `i div 8` sets bit `i mod 8` if the coil is 1, and no other bit. -/
theorem getLsbD_modify_coil {c : Word} (hc : c = 0 ∨ c = 1) (i : Nat) {data : List Byte} {j k : Nat}
    (hj : j < data.length) (hk : k < 8) :
    ((data.modify (i / 8) fun d => d ||| (loByte c <<< (i % 8))).getD j 0).getLsbD k =
      ((data.getD j 0).getLsbD k || decide (i = 8 * j + k ∧ c = 1)) := by
  have hbit : (loByte c <<< (i % 8)).getLsbD k = decide (k = i % 8 ∧ c = 1) := by
    rcases hc with rfl | rfl
    · simp [loByte]
    · have h1 : loByte 1 = 1#8 := rfl
      rw [h1, BitVec.getLsbD_shiftLeft, BitVec.getLsbD_one, decide_eq_true hk, Bool.eq_iff_iff]
      simp only [Bool.and_eq_true, Bool.not_eq_true', decide_eq_true_eq,
        decide_eq_false_iff_not, and_true, true_and]
      omega
  simp only [List.getD_eq_getElem?_getD, List.getElem?_modify, List.getElem?_eq_getElem hj,
    Option.map_eq_map, Option.map_some, Option.getD_some]
  by_cases h : i / 8 = j
  · rw [if_pos h, BitVec.getLsbD_or, hbit]
    simp only [show k = i % 8 ↔ i = 8 * j + k by omega]
  · simp [if_neg h, show i ≠ 8 * j + k by omega]

/-- R142's loop from coil `i` on adds coil `8j + k` to bit `k` of byte `j`. -/
theorem getLsbD_orCoils {cs : List Word} (hc : ∀ c ∈ cs, c = 0 ∨ c = 1) (i : Nat) {data : List Byte}
    {j k : Nat} (hj : j < data.length) (hk : k < 8) :
    ((orCoils cs i data).getD j 0).getLsbD k =
      ((data.getD j 0).getLsbD k || decide (i ≤ 8 * j + k ∧ cs[8 * j + k - i]? = some 1)) := by
  induction cs generalizing i data with
  | nil => simp [orCoils]
  | cons c cs ih =>
    rw [orCoils, ih (fun c hm => hc c (by simp [hm])) (i + 1) (by simpa using hj),
      getLsbD_modify_coil (hc c (by simp)) i hj hk, Bool.or_assoc, ← Bool.decide_or]
    congr 2
    rcases Nat.lt_trichotomy i (8 * j + k) with h | h | h
    · rw [show 8 * j + k - i = 8 * j + k - (i + 1) + 1 by omega]
      simp [h.ne, Nat.succ_le_iff.2 h, h.le]
    · simp [h]
    · simp [h.ne', show ¬ i ≤ 8 * j + k by omega, show ¬ i + 1 ≤ 8 * j + k by omega]

/-- The loop of R142 and the table's format (R80, R84 (e)) give the same coil data. -/
theorem coilBytes_eq_coilData {mode : WmcMode} {cs : List Word} (qty : Word)
    (hc : ∀ c ∈ cs, coilInRange mode c = true) :
    coilBytes mode ((qty.toNat + 7) / 8) cs = coilData mode qty cs := by
  cases mode with
  | literal => rfl
  | packed =>
    have hbit : ∀ c ∈ cs, c = 0 ∨ c = 1 := fun c hm => coilInRange_packed_iff.1 (hc c hm)
    refine List.ext_getElem (by simp [coilBytes, coilData]) fun j h1 h2 => ?_
    have hj : j < (qty.toNat + 7) / 8 := by simpa [coilData] using h2
    have hzero : (List.replicate ((qty.toNat + 7) / 8) (0 : Byte)).getD j 0 = 0 :=
      List.getD_replicate _ hj
    refine BitVec.eq_of_getLsbD_eq fun k hk => ?_
    rw [← List.getD_eq_getElem _ 0 h1, ← List.getD_eq_getElem _ 0 h2]
    simp only [coilBytes, coilData, getLsbD_packBytes hbit hj hk,
      getLsbD_orCoils hbit 0 (data := List.replicate _ 0) (by simpa using hj) hk, hzero]
    simp

end Sys2Proof.Machine
end
section
/-! PROOFS. The reader of request frames is the inverse of the table's formats (30_encoding.md R80,
41_encode.md R131): what it accepts, function by function, then for a whole frame. -/

namespace Sys2Proof

/-! ## Payloads -/

/-- A Write Multiple Coils command is well formed where its count is `qty`, its coils are what the mode
admits, and its byte count fits (R143, R146, R148). -/
theorem wellFormed_wmc_iff {mode : WmcMode} {stn : Byte} {a qty : Word} {cs : List Word} :
    wellFormed mode (.wmc stn a qty cs) = true ↔
      cs.length = qty.toNat ∧ (∀ c ∈ cs, coilInRange mode c = true) ∧ (qty.toNat + 7) / 8 ≤ 255 := by
  simp only [wellFormed, illFormed, ← List.all_eq_true]
  by_cases hl : cs.length = qty.toNat
  · cases cs.all (coilInRange mode)
    · simp [hl]
    · simp [hl]
  · simp [hl]

/-- A Write Multiple Registers command is well formed where its count is `qty` and its byte count fits
(R146, R148). -/
theorem wellFormed_wmr_iff {mode : WmcMode} {stn : Byte} {a qty : Word} {ws : List Word} :
    wellFormed mode (.wmr stn a qty ws) = true ↔ ws.length = qty.toNat ∧ 2 * qty.toNat ≤ 255 := by
  simp only [wellFormed, illFormed]
  by_cases hl : ws.length = qty.toNat
  · simp [hl]
  · simp [hl]

/-- A byte-count field is the count it stands for, where that fits a byte. -/
theorem toNat_eq_iff_eq_ofNat {b : Byte} {n : Nat} : b.toNat = n ↔ n ≤ 255 ∧ b = BitVec.ofNat 8 n := by
  constructor
  · rintro rfl
    exact ⟨Nat.le_of_lt_succ b.isLt, by simp⟩
  · rintro ⟨h, rfl⟩
    simpa using Nat.lt_succ_of_le h

/-- Format Q-WMC is read back exactly where it is the coil data of a well-formed command. -/
theorem parseCoils_eq_ok_iff {mode : WmcMode} {stn bc : Byte} {a qty : Word} {data : List Byte}
    {i : Instr} :
    parseCoils mode stn a qty bc data = .ok i ↔
      ∃ cs, i = .wmc stn a qty cs ∧ wellFormed mode (.wmc stn a qty cs) = true ∧
        bc = BitVec.ofNat 8 ((qty.toNat + 7) / 8) ∧ data = coilData mode qty cs := by
  simp only [parseCoils, wellFormed_wmc_iff, toNat_eq_iff_eq_ofNat]
  constructor
  · intro h
    split at h
    · next hok =>
      obtain ⟨hl, ⟨hlt, hbc⟩, hdata⟩ := hok
      cases h
      exact ⟨_, rfl, ⟨hl, fun _ => coilInRange_of_mem_coilsOf, hlt⟩, hbc, hdata.symm⟩
    · cases h
  · rintro ⟨cs, rfl, ⟨hl, hc, hlt⟩, hbc, rfl⟩
    rw [coilsOf_coilData hl hc, if_pos ⟨hl, ⟨hlt, hbc⟩, rfl⟩]

/-- Format Q-WMR is read back exactly where it is the registers of a well-formed command. -/
theorem parseValues_eq_ok_iff {mode : WmcMode} {stn bc : Byte} {a qty : Word} {data : List Byte}
    {i : Instr} :
    parseValues stn a qty bc data = .ok i ↔
      ∃ ws, i = .wmr stn a qty ws ∧ wellFormed mode (.wmr stn a qty ws) = true ∧
        bc = BitVec.ofNat 8 (2 * qty.toNat) ∧ data = be16s ws := by
  simp only [parseValues, wellFormed_wmr_iff, toNat_eq_iff_eq_ofNat]
  constructor
  · intro h
    split at h
    · next ws hws =>
      split at h
      · next hok =>
        obtain ⟨hl, hlt, hbc⟩ := hok
        cases h
        exact ⟨ws, rfl, ⟨hl, hlt⟩, hbc, (wordsOf_eq_some_iff.1 hws).symm⟩
      · cases h
    · cases h
  · rintro ⟨ws, rfl, ⟨hl, hlt⟩, hbc, rfl⟩
    rw [wordsOf_eq_some_iff.2 rfl]
    exact if_pos ⟨hl, hlt, hbc⟩

/-! ## The catalogue -/

/-- The catalogue of R86. -/
theorem catalogued_iff {fn : Byte} :
    catalogued fn = true ↔ fn.toNat ∈ [1, 2, 3, 4, 5, 6, 7, 8, 11, 12, 15, 16, 17] := by
  unfold catalogued
  split <;> simp_all

/-- The catalogue by the shape of the payload (R80): two operands, none, or a format of its own. -/
theorem catalogued_cases {fn : Byte} (h : catalogued fn = true) :
    (fn = 0x01 ∨ fn = 0x02 ∨ fn = 0x03 ∨ fn = 0x04 ∨ fn = 0x05 ∨ fn = 0x06) ∨
      (fn = 0x07 ∨ fn = 0x0B ∨ fn = 0x0C ∨ fn = 0x11) ∨ fn = 0x08 ∨ fn = 0x0F ∨ fn = 0x10 := by
  rw [catalogued_iff] at h
  simp only [List.mem_cons, List.not_mem_nil, or_false] at h
  bv_omega

/-! ## Bodies -/

/-- A body of a function outside the catalogue is named as that (R88). -/
theorem parseBody_uncatalogued {mode : WmcMode} {stn fn : Byte} {payload : List Byte}
    (h : ¬ catalogued fn = true) :
    parseBody mode stn fn payload = .error (.unknownFunction fn) := by
  unfold parseBody
  rw [if_neg h]
  rw [catalogued_iff] at h
  generalize fn.toNat = n at h ⊢
  match n with
  | 0 | 9 | 10 | 13 | 14 | _ + 18 => rfl
  | 1 | 2 | 3 | 4 | 5 | 6 | 7 | 8 | 11 | 12 | 15 | 16 | 17 => simp at h

/-- Format Q-DIAG is read back exactly where it is a sequence of words. -/
theorem parseBody_diag_eq_ok_iff {mode : WmcMode} {stn s1 s0 : Byte} {rest : List Byte} {i : Instr} :
    parseBody mode stn 0x08 (s1 :: s0 :: rest) = .ok i ↔
      ∃ data, rest = be16s data ∧ i = .diag stn (joinBytes s1 s0) data := by
  show (match wordsOf rest with
    | some data => Except.ok (Instr.diag stn (joinBytes s1 s0) data)
    | none => .error (Reject.badPayload 0x08)) = .ok i ↔ _
  constructor
  · intro h
    split at h
    · next data hd =>
      cases h
      exact ⟨data, (wordsOf_eq_some_iff.1 hd).symm, rfl⟩
    · cases h
  · rintro ⟨data, rfl, rfl⟩
    rw [wordsOf_eq_some_iff.2 rfl]

/-- What the reader accepts as a body is the body of the well-formed command it answers. -/
theorem requestBody_of_parseBody {mode : WmcMode} {stn fn : Byte} {payload : List Byte} {i : Instr}
    (h : parseBody mode stn fn payload = .ok i) :
    requestBody mode i = some (stn :: fn :: payload) ∧ wellFormed mode i = true := by
  have hc : catalogued fn = true := by
    by_contra hc
    rw [parseBody_uncatalogued hc] at h
    cases h
  rcases catalogued_cases hc with hfn | hfn | rfl | rfl | rfl
  · rcases hfn with rfl | rfl | rfl | rfl | rfl | rfl
    all_goals
      match payload, h with
      | [a1, a0, b1, b0], h =>
        cases h
        exact ⟨by simp [requestBody], rfl⟩
      | [], h | [_], h | [_, _], h | [_, _, _], h | _ :: _ :: _ :: _ :: _ :: _, h => cases h
  · rcases hfn with rfl | rfl | rfl | rfl
    all_goals
      match payload, h with
      | [], h =>
        cases h
        exact ⟨rfl, rfl⟩
      | _ :: _, h => cases h
  · match payload, h with
    | s1 :: s0 :: rest, h =>
      obtain ⟨data, rfl, rfl⟩ := parseBody_diag_eq_ok_iff.1 h
      exact ⟨by simp [requestBody], rfl⟩
    | [], h | [_], h => cases h
  · match payload, h with
    | a1 :: a0 :: q1 :: q0 :: bc :: data, h =>
      obtain ⟨cs, rfl, hwf, rfl, rfl⟩ := parseCoils_eq_ok_iff.1 h
      exact ⟨by simp [requestBody], hwf⟩
    | [], h | [_], h | [_, _], h | [_, _, _], h | [_, _, _, _], h => cases h
  · match payload, h with
    | a1 :: a0 :: q1 :: q0 :: bc :: data, h =>
      obtain ⟨ws, rfl, hwf, rfl, rfl⟩ := (parseValues_eq_ok_iff (mode := mode)).1 h
      exact ⟨by simp [requestBody], hwf⟩
    | [], h | [_], h | [_, _], h | [_, _, _], h | [_, _, _, _], h => cases h

/-- Every request's body begins with a station and a function byte. -/
theorem exists_of_requestBody {mode : WmcMode} {i : Instr} {body : List Byte}
    (h : requestBody mode i = some body) : ∃ stn fn payload, body = stn :: fn :: payload := by
  cases i <;> cases h <;> exact ⟨_, _, _, rfl⟩

/-- The body of a well-formed command is read back as it. -/
theorem parseBody_of_requestBody {mode : WmcMode} {stn fn : Byte} {payload : List Byte} {i : Instr}
    (h : requestBody mode i = some (stn :: fn :: payload)) (hwf : wellFormed mode i = true) :
    parseBody mode stn fn payload = .ok i := by
  cases i
  case diag stn sub data =>
    obtain ⟨s1, s0, rfl⟩ := exists_eq_joinBytes sub
    rw [requestBody, be16_joinBytes] at h
    cases h
    exact parseBody_diag_eq_ok_iff.2 ⟨data, rfl, rfl⟩
  case wmc stn a qty cs =>
    obtain ⟨a1, a0, rfl⟩ := exists_eq_joinBytes a
    obtain ⟨q1, q0, rfl⟩ := exists_eq_joinBytes qty
    rw [requestBody, be16_joinBytes, be16_joinBytes] at h
    cases h
    exact parseCoils_eq_ok_iff.2 ⟨cs, rfl, hwf, rfl, rfl⟩
  case wmr stn a qty ws =>
    obtain ⟨a1, a0, rfl⟩ := exists_eq_joinBytes a
    obtain ⟨q1, q0, rfl⟩ := exists_eq_joinBytes qty
    rw [requestBody, be16_joinBytes, be16_joinBytes] at h
    cases h
    exact parseValues_eq_ok_iff.2 ⟨ws, rfl, hwf, rfl, rfl⟩
  case rc stn a b | rdi stn a b | rhr stn a b | rir stn a b | wsc stn a b | wsr stn a b =>
    obtain ⟨a1, a0, rfl⟩ := exists_eq_joinBytes a
    obtain ⟨b1, b0, rfl⟩ := exists_eq_joinBytes b
    rw [requestBody, be16_joinBytes, be16_joinBytes] at h
    cases h
    rfl
  all_goals cases h <;> rfl

/-! ## Frames -/

/-- A frame is its body with the checksum appended exactly where its last two bytes are the checksum of
the others (R131). -/
theorem eq_withCrc_iff {frame body : List Byte} :
    frame = withCrc body ↔
      frame.take (frame.length - 2) = body ∧ frame.drop (frame.length - 2) = le16 (crc16 body) := by
  constructor
  · rintro rfl
    rw [length_withCrc, Nat.add_sub_cancel]
    exact ⟨List.take_left, List.drop_left⟩
  · rintro ⟨hbody, hsum⟩
    rw [withCrc, ← hsum, ← hbody, List.take_append_drop]

/-- The reader accepts exactly a body it accepts, followed by its checksum. -/
theorem parseRequest_eq_ok_iff {mode : WmcMode} {frame : List Byte} {i : Instr} :
    parseRequest mode frame = .ok i ↔
      ∃ stn fn payload, frame = withCrc (stn :: fn :: payload) ∧ parseBody mode stn fn payload = .ok i := by
  simp only [eq_withCrc_iff]
  dsimp only [parseRequest]
  constructor
  · intro h
    split at h
    · next stn fn payload hb =>
      split at h
      · next hsum => exact ⟨stn, fn, payload, ⟨hb, hb ▸ hsum⟩, h⟩
      · cases h
    · cases h
  · rintro ⟨stn, fn, payload, ⟨hb, hsum⟩, h⟩
    simp only [hb, hsum, if_true, h]

/-- Settles O17: a frame is a body and its checksum, and the bodies the reader accepts are those of
well-formed commands. -/
theorem requestFramesReadBack : Obligations.RequestFramesReadBack := by
  intro mode bytes i
  rw [parseRequest_eq_ok_iff, requestFrame, Option.map_eq_some_iff]
  constructor
  · rintro ⟨stn, fn, payload, rfl, h⟩
    obtain ⟨hbody, hwf⟩ := requestBody_of_parseBody h
    exact ⟨⟨_, hbody, rfl⟩, hwf⟩
  · rintro ⟨⟨body, hbody, rfl⟩, hwf⟩
    obtain ⟨stn, fn, payload, rfl⟩ := exists_of_requestBody hbody
    exact ⟨stn, fn, payload, rfl, parseBody_of_requestBody hbody hwf⟩

end Sys2Proof
end
section
/-! PROOFS. What ENC builds is the table's frame of the command it was given (30_encoding.md R80,
41_encode.md R130, R131), and what ENCODE refuses before anything is built (R22, R23, R88). -/

namespace Sys2Proof.Machine

/-! ## Frames built -/

/-- Emission that leads to SEND has stored its frame. -/
theorem emit_to_send {n : Nat} {body : List Byte} {s t : State} (h : emit n body s = .next t)
    (ht : t.phase = .send) : t = storeFrame body s := by
  rcases emit_cases n body s with ⟨-, he⟩ | ⟨-, -, he⟩ <;> rw [he] at h <;> cases h
  · cases ht
  · rfl

/-- A request row that leads to SEND had a well-formed command, and has stored the table's body of it. -/
theorem request_to_send {i : Instr} {fn : Byte} {s t : State} (hi : requestFn i = some fn)
    (h : exec i s = .next t) (ht : t.phase = .send) :
    wellFormed s.cfg.wmcMode i = true ∧
      ∃ body, requestBody s.cfg.wmcMode i = some body ∧ t = storeFrame body s := by
  cases i <;> simp only [requestFn, reduceCtorEq] at hi
  case wmc stn start qty coils =>
    simp only [exec, execWmc] at h
    split at h
    · cases h; cases ht
    · next hl =>
      split at h
      · cases h; cases ht
      · next hbad =>
        split at h
        · cases h; cases ht
        · next hbc =>
          have hc : ∀ c ∈ coils, coilInRange s.cfg.wmcMode c = true := by
            simpa [badCoil_eq_not_coilInRange] using hbad
          rw [Nat.shiftRight_eq_div_pow] at h hbc
          have hdata := coilBytes_eq_coilData qty hc
          exact ⟨wellFormed_wmc_iff.2 ⟨not_not.1 hl, hc, Nat.le_of_not_lt hbc⟩, _, rfl,
            hdata ▸ emit_to_send h ht⟩
  case wmr stn start qty values =>
    simp only [exec, execWmr] at h
    split at h
    · cases h; cases ht
    · next hl =>
      split at h
      · cases h; cases ht
      · next hbc =>
        exact ⟨wellFormed_wmr_iff.2 ⟨not_not.1 hl, Nat.le_of_not_lt hbc⟩, _, rfl, emit_to_send h ht⟩
  all_goals exact ⟨rfl, _, rfl, emit_to_send h ht⟩

/-- Settles O18: the frame stored is the table's, and O17 reads it back. -/
theorem builtFrameIsTheCommand : Obligations.BuiltFrameIsTheCommand := by
  intro s t i hi _ h ht
  obtain ⟨fn, hfn⟩ := Option.isSome_iff_exists.1 hi
  obtain ⟨hwf, body, hbody, rfl⟩ := request_to_send hfn h ht
  have hframe : requestFrame s.cfg.wmcMode i = some (withCrc body) := by rw [requestFrame, hbody]; rfl
  exact ⟨withCrc body, txFrame_storeFrame body s, hframe,
    (requestFramesReadBack _ _ _).2 ⟨hframe, hwf⟩⟩

/-! ## Commands refused -/

/-- Elements that are read are all written (R22). -/
theorem elements_ok {cap : Nat} {v : ValueFile} {k n : Nat} {vals : List Word}
    (h : elements cap v k n = .ok vals) {j : Nat} (hk : k ≤ j) (hn : j < k + n) (hj : j < cap) :
    Sparse.read v j ≠ none := by
  induction n generalizing k vals with
  | zero => omega
  | succ n ih =>
    unfold elements at h
    split at h
    · cases h
    · cases h
    · next x xs hx hxs =>
      rcases Nat.eq_or_lt_of_le hk with rfl | hlt
      · rw [if_pos hj] at hx
        simp [hx]
      · exact ih hxs hlt (by omega)

/-- An operand that is needed and read is written (R22). -/
theorem operand_ok {r : Option Word} {x : Word} (h : operand true r = .ok x) : r ≠ none := by
  rintro rfl
  cases h

/-- Of the values needed and read, the count and each element are written (R22). -/
theorem valueOperands_ok {s : State} {vals : List Word} (h : valueOperands true s = .ok vals) :
    ∃ n, s.nv = some n ∧ ∀ k, k < n → k < s.cfg.nvMax → Sparse.read s.v k ≠ none := by
  unfold valueOperands at h
  rw [if_pos rfl] at h
  split at h
  · cases h
  · next n hn => exact ⟨n, hn, fun k hk => elements_ok h (Nat.zero_le k) (by omega)⟩

section
variable {s : State} {fn : Byte} (hfn : s.fn = some fn)
include hfn

/-- A function code outside the catalogue is refused before any other register is looked at (R88). -/
theorem commandOperands_uncatalogued (hc : ¬ catalogued fn = true) :
    commandOperands s = .error .unknownFunction := by
  simp [commandOperands, hfn, hc]

/-- For a code of the catalogue the registers hold a command, or one that is needed is unwritten (R22). -/
theorem commandOperands_catalogued (hc : catalogued fn = true) :
    (∃ w, commandOperands s = .ok w) ∨ commandOperands s = .error .unwrittenOperand := by
  unfold commandOperands
  simp only [hfn, hc, if_true]
  split
  · exact .inl ⟨_, rfl⟩
  · exact .inr rfl

end

/-- A reason found in the registers ends ENCODE, with nothing built and nothing sent (R22, R88, R212). -/
theorem step_encode_refused {s : State} {r : Reason} (hp : s.phase = .encode) (hq : quiet s = true)
    (h : commandOperands s = .error r) : step s = .next (endWith (.refused r) s) := by
  rw [step_encode hp hq, encodeAction, h]
  rfl

/-- Which operations read `A` (R23). -/
theorem readsA_iff {fn : Byte} : readsA fn = true ↔ fn.toNat ∈ [1, 2, 3, 4, 5, 6, 8, 15, 16] := by
  unfold readsA
  split <;> simp_all

/-- Which operations read `B` (R23). -/
theorem readsB_iff {fn : Byte} : readsB fn = true ↔ fn.toNat ∈ [1, 2, 3, 4, 5, 6, 15, 16] := by
  unfold readsB
  split <;> simp_all

/-- Which operations read `NV` and the values (R23). -/
theorem readsValues_iff {fn : Byte} : readsValues fn = true ↔ fn.toNat ∈ [8, 15, 16] := by
  unfold readsValues
  split <;> simp_all

/-- Settles O51: the catalogue decides first, and a command that was read had every register it needs. -/
theorem encodeRefusesUnknownAndUnwritten : Obligations.EncodeRefusesUnknownAndUnwritten := by
  intro s f hp hq hfn
  simp only [← catalogued_iff, ← readsA_iff, ← readsB_iff, ← readsValues_iff]
  refine ⟨fun hc => ⟨_, step_encode_refused hp hq (commandOperands_uncatalogued hfn hc), rfl⟩,
    fun hc hmissing => ?_⟩
  rcases commandOperands_catalogued hfn hc with ⟨w, hw⟩ | hr
  · exfalso
    obtain ⟨fn, stn, raw, a, b, vals, hfn', -, hstn, hraw, ha, hb, hv, -⟩ := commandOperands_ok hw
    cases hfn.symm.trans hfn'
    rcases hmissing with h | h | ⟨hr, h⟩ | ⟨hr, h⟩ | ⟨hr, h⟩ | ⟨hr, n, k, hn, hk, hcap, h⟩
    · cases hstn.symm.trans h
    · cases hraw.symm.trans h
    · exact operand_ok (hr ▸ ha) h
    · exact operand_ok (hr ▸ hb) h
    · obtain ⟨n, hn, -⟩ := valueOperands_ok (hr ▸ hv)
      cases hn.symm.trans h
    · obtain ⟨n', hn', hall⟩ := valueOperands_ok (hr ▸ hv)
      cases hn.symm.trans hn'
      exact hall k hk hcap h
  · exact ⟨_, step_encode_refused hp hq hr, rfl⟩

end Sys2Proof.Machine
end

section
/-! PROOFS. The decoder on port words (30_encoding.md R86, R87, R92): it inverts the encoding of every
row, classifies every function byte of a response, and reads the words written out from the spec. -/

namespace Sys2Proof

/-- Settles O14, row by row from the laws of the port words. -/
theorem portWordsDecodeBack : Obligations.PortWordsDecodeBack := by
  intro i
  cases i
  open Laws.PortRoundTrip in
  exacts [rc .., rdi .., rhr .., rir .., wsc .., wsr .., res .., diag .., gcec .., gcel .., wmc ..,
    wmr .., rsid .., rcResponse, rdiResponse, rhrResponse, rirResponse, wscResponse, wsrResponse,
    resResponse, diagResponse, gcecResponse, gcelResponse, wmcResponse, wmrResponse, rsidResponse,
    exceptionResponse, crcInit, crcUpdate .., crcHold, xltLookup .., openLine, closeLine]

/-- A latched code of the catalogue has a decoder for its success response (R25, R86). -/
theorem decodeSuccess_catalogued {fn : Byte} (h : catalogued fn = true) :
    ∃ i, decodeSuccess fn = .ok i := by
  rcases catalogued_cases h with hfn | hfn | rfl | rfl | rfl
  · rcases hfn with rfl | rfl | rfl | rfl | rfl | rfl <;> exact ⟨_, rfl⟩
  · rcases hfn with rfl | rfl | rfl | rfl <;> exact ⟨_, rfl⟩
  all_goals exact ⟨_, rfl⟩

/-- Settles O15: the function byte is compared with the latch, then with the latch plus 0x80. -/
theorem functionByteClassified : Obligations.FunctionByteClassified := by
  intro reqFn f hc
  obtain ⟨i, hi⟩ := decodeSuccess_catalogued hc
  refine ⟨fun hf => ⟨if_pos hf, by simp [hi]⟩, fun h80 => ?_, fun hf h80 => ?_⟩
  · have hf : f ≠ reqFn := by rintro rfl; omega
    exact (if_neg hf).trans (if_pos h80)
  · exact (if_neg hf).trans (if_neg h80)

/-- Settles O16: the three frames are those of their commands (O17), the other words decode by
computation. -/
theorem specWordsDecode : Obligations.SpecWordsDecode := by
  refine ⟨?_, ?_, ?_, rfl, rfl, rfl, rfl, rfl, rfl, rfl⟩
  all_goals exact (requestFramesReadBack _ _ _).2 ⟨by decide +kernel, rfl⟩

end Sys2Proof
end

section
/-! PROOFS. The CRC unit's arithmetic (40_crc.md R111, R118): what one iteration does to the bits, the step
as a linear map over XOR, and the accumulator carried from one part of a message to the next. -/

namespace Sys2Proof

/-- An iteration that tests a 1 shifts and XORs the polynomial (R111). -/
theorem crcIter_of_lsb {c : Word} (h : c.getLsbD 0 = true) : crcIter c = (c >>> 1) ^^^ 0xA001#16 := if_pos h

/-- An iteration that tests a 0 is a logical right shift (R111). -/
theorem crcIter_of_not_lsb {c : Word} (h : c.getLsbD 0 = false) : crcIter c = c >>> 1 :=
  if_neg (ne_true_of_eq_false h)

/-- An iteration is linear: the polynomials of two operands that both XOR cancel, as the tested bits do. -/
theorem crcIter_xor (c d : Word) : crcIter (c ^^^ d) = crcIter c ^^^ crcIter d := by
  have hlsb : (c ^^^ d).getLsbD 0 = (c.getLsbD 0 ^^ d.getLsbD 0) := BitVec.getLsbD_xor
  have hshift : (c ^^^ d) >>> 1 = c >>> 1 ^^^ d >>> 1 := BitVec.ushiftRight_xor_distrib c d 1
  cases hc : c.getLsbD 0 <;> cases hd : d.getLsbD 0 <;> rw [hc, hd] at hlsb
  · rw [crcIter_of_not_lsb hlsb, crcIter_of_not_lsb hc, crcIter_of_not_lsb hd, hshift]
  · rw [crcIter_of_lsb hlsb, crcIter_of_not_lsb hc, crcIter_of_lsb hd, hshift, BitVec.xor_assoc]
  · rw [crcIter_of_lsb hlsb, crcIter_of_lsb hc, crcIter_of_not_lsb hd, hshift]
    ac_rfl
  · calc crcIter (c ^^^ d)
      _ = c >>> 1 ^^^ d >>> 1 := by rw [crcIter_of_not_lsb hlsb, hshift]
      _ = c >>> 1 ^^^ d >>> 1 ^^^ (0xA001#16 ^^^ 0xA001#16) := by rw [BitVec.xor_self, BitVec.xor_zero]
      _ = crcIter c ^^^ crcIter d := by rw [crcIter_of_lsb hc, crcIter_of_lsb hd]; ac_rfl

theorem crcIters_xor (n : Nat) (c d : Word) : crcIters n (c ^^^ d) = crcIters n c ^^^ crcIters n d := by
  induction n generalizing c d with
  | zero => rfl
  | succ n ih => simp only [crcIters, crcIter_xor, ih]

/-- Settles O47: every iteration is linear, and so is placing the byte in the low half of the accumulator. -/
theorem crcStepIsLinear : Obligations.CrcStepIsLinear := by
  intro c d x y
  have hinput : c ^^^ d ^^^ (x ^^^ y).setWidth 16 = (c ^^^ x.setWidth 16) ^^^ (d ^^^ y.setWidth 16) := by
    rw [BitVec.setWidth_xor]
    ac_rfl
  rw [crcStep, hinput, crcIters_xor, crcStep, crcStep]

/-- The accumulator after a first part of a message carries over to the rest (R118). -/
theorem crc16_append (s t : List Byte) : crc16 (s ++ t) = t.foldl crcStep (crc16 s) := List.foldl_append

/-- Settles O46: the residue law, and the accumulator carried over. -/
theorem crcResidueAndPrefix : Obligations.CrcResidueAndPrefix := ⟨crc16_append_le16, crc16_append⟩

/-- Settles O44: the polynomial has bits 15, 13 and 0 set, and the shift brings in a 0 at bit 15. -/
theorem crcIterationBits : Obligations.CrcIterationBits := by
  refine fun c => ⟨fun h => ?_, crcIter_of_not_lsb⟩
  rw [crcIter_of_lsb h]
  refine ⟨?_, ?_, ?_⟩ <;> simp

end Sys2Proof
end

section
/-! PROOFS. The CRC port (40_crc.md R111 to R114, R120, 30_encoding.md R92): its three operations, and a run
of them over a message. -/

namespace Sys2Proof.Machine

theorem exec_crcInit (s : State) :
    exec .crcInit s = .next (if s.phase = .idle then opCrcInit s else s) := onCrcPort_eq _ s

theorem exec_crcUpdate (b : Byte) (s : State) :
    exec (.crcUpdate b) s = .next (if s.phase = .idle then opCrcUpdate b s else s) := onCrcPort_eq _ s

theorem exec_crcHold (s : State) : exec .crcHold s = .next s :=
  (onCrcPort_eq id s).trans (congrArg _ (ite_self s))

/-- Settles O43: the three operations in IDLE and while busy; the eight iterations of R111 are those of
`crcStep`, and the port's words decode by computation. -/
theorem crcPortOperations : Obligations.CrcPortOperations := by
  refine fun s b => ⟨fun hp => ⟨?_, ?_, exec_crcHold s⟩, fun hp => ⟨?_, ?_, exec_crcHold s⟩,
    rfl, rfl, rfl, rfl⟩
  · rw [exec_crcInit, if_pos hp]
    rfl
  · rw [exec_crcUpdate, if_pos hp]
    rfl
  · rw [exec_crcInit, if_neg hp]
  · rw [exec_crcUpdate, if_neg hp]

/-- A run's first step, when it goes on. -/
theorem steps_succ {k : Nat} {s t : State} (h : step s = .next t) : steps (k + 1) s = steps k t := by
  simp only [steps, Host.Core.run, h]

/-- Controls waiting on the CRC port are what the next step runs (R92, R225). -/
theorem step_crcPort {s : State} {init en : Bool} {din : Byte} {rest : List HostInput}
    (h : s.hostIn = .now (.crcPort init en din) :: rest) :
    step s = exec (decodeCrcPort init en din) { s with hostIn := rest } := step_of_lands (.inl h)

section
variable {s : State} {rest : List HostInput} (hp : s.phase = .idle)
include hp

/-- INIT on the port of an idle block (R112). -/
theorem step_crcInit {en : Bool} {din : Byte} (h : s.hostIn = .now (.crcPort true en din) :: rest) :
    step s = .next (opCrcInit { s with hostIn := rest }) := by
  rw [step_crcPort h, decodeCrcPort, exec_crcInit, if_pos hp]

/-- UPDATE on the port of an idle block (R111). -/
theorem step_crcUpdate {b : Byte} (h : s.hostIn = .now (.crcPort false true b) :: rest) :
    step s = .next (opCrcUpdate b { s with hostIn := rest }) := by
  rw [step_crcPort h, decodeCrcPort, exec_crcUpdate, if_pos hp]

/-- UPDATE for each byte of a message folds `crcStep` over it and changes nothing else (R111). -/
theorem steps_crcUpdate (msg : List Byte)
    (h : s.hostIn = (msg.map fun b => HostInput.now (.crcPort false true b)) ++ rest) :
    steps msg.length s = .next { s with crc := msg.foldl crcStep s.crc, hostIn := rest } := by
  induction msg generalizing s with
  | nil => subst h; rfl
  | cons b msg ih => exact (steps_succ (step_crcUpdate hp h)).trans (ih hp rfl)

end

/-- Settles O45: INIT sets the accumulator, and the updates fold over the message from there. -/
theorem crcPortComputesCrc16 : Obligations.CrcPortComputesCrc16 := by
  intro s msg rest hp h
  rw [steps_succ (step_crcInit hp h)]
  exact steps_crcUpdate (s := opCrcInit { s with hostIn := _ }) hp msg rfl

end Sys2Proof.Machine
end

section
/-! PROOFS. What a request row answers (41_encode.md R130, R131, R143, R146 to R148): the outcome of the first
check it fails, or the table's body of it stored with its checksum. -/

namespace Sys2Proof

/-! ## Lengths of the parts of a body -/

@[simp] theorem length_be16 (w : Word) : (be16 w).length = 2 := rfl

@[simp] theorem length_be16s (ws : List Word) : (be16s ws).length = 2 * ws.length := by
  induction ws with
  | nil => rfl
  | cons w ws ih => simp [be16s, ih, Nat.mul_add, Nat.add_comm]

/-- The coil data is one byte per eight coils in `packed` mode, one per coil in `literal` mode (R142). -/
theorem length_coilData (mode : WmcMode) {qty : Word} {cs : List Word} (hl : cs.length = qty.toNat) :
    (coilData mode qty cs).length = if mode = .packed then (qty.toNat + 7) / 8 else qty.toNat := by
  cases mode with
  | packed => exact length_packBytes _ cs
  | literal => exact (List.length_map ..).trans hl

/-- The frame of a request that writes several values is 9 bytes and their data (R142, R144). -/
theorem length_blockWrite (stn fn bc : Byte) (start qty : Word) (data : List Byte) :
    ([stn, fn] ++ be16 start ++ be16 qty ++ [bc] ++ data).length + 2 = 9 + data.length :=
  Nat.add_comm data.length 9

/-! ## Checks (3) to (5) -/

/-- A coil argument is in range where it fits a byte and, in `packed` mode, is 0 or 1 (R143). -/
theorem coilInRange_iff {mode : WmcMode} {c : Word} :
    coilInRange mode c = true ↔ c.toNat < 256 ∧ (mode = .packed → c = 0 ∨ c = 1) := by
  cases mode with
  | literal => simp [coilInRange]
  | packed =>
    have hfits : c = 0 ∨ c = 1 → c.toNat < 256 := by rintro (rfl | rfl) <;> decide
    simpa [coilInRange_packed_iff] using hfits

/-- Coils, or registers, in a number other than `qty` are the first thing to be wrong (R148). -/
theorem illFormed_of_count {mode : WmcMode} {i : Instr} {stn : Byte} {a qty : Word} {values : List Word}
    (hi : i = .wmc stn a qty values ∨ i = .wmr stn a qty values) (hl : values.length ≠ qty.toNat) :
    illFormed mode i = some .argCount := by
  rcases hi with rfl | rfl <;> exact if_pos hl

section
variable {mode : WmcMode} {stn : Byte} {a qty : Word} {values : List Word}
  (hl : values.length = qty.toNat)
include hl

/-- Registers in the right number whose bytes are too many (R146). -/
theorem illFormed_wmr_byteCount (hbc : 255 < 2 * qty.toNat) :
    illFormed mode (.wmr stn a qty values) = some .byteCount := by
  rw [illFormed, if_neg (not_not.2 hl), if_pos hbc]

/-- Coils in the right number, one of them out of range (R143). -/
theorem illFormed_wmc_coilValue (hc : ¬ ∀ c ∈ values, coilInRange mode c = true) :
    illFormed mode (.wmc stn a qty values) = some .coilValue := by
  rw [← List.all_eq_true, Bool.not_eq_true] at hc
  rw [illFormed, if_neg (not_not.2 hl), if_pos hc]

/-- Coils in the right number and in range whose byte count is too large (R146). -/
theorem illFormed_wmc_byteCount (hc : ∀ c ∈ values, coilInRange mode c = true)
    (hbc : 255 < (qty.toNat + 7) / 8) : illFormed mode (.wmc stn a qty values) = some .byteCount := by
  rw [← List.all_eq_true] at hc
  rw [illFormed, if_neg (not_not.2 hl), if_neg (by simp [hc]), if_pos hbc]

end

end Sys2Proof

namespace Sys2Proof.Machine

/-- The encoder finds a bad coil exactly where not all are in range (R143). -/
theorem any_badCoil (mode : WmcMode) (cs : List Word) :
    cs.any (badCoil mode) = !cs.all (coilInRange mode) := by
  rw [List.not_all_eq_any_not, funext (badCoil_eq_not_coilInRange mode)]

/-! ## The answer of a row -/

/-- An ill-formed command ends in the outcome of the first check it fails (R130). -/
theorem exec_of_illFormed {i : Instr} {w : IllFormed} {s : State}
    (h : illFormed s.cfg.wmcMode i = some w) : exec i s = .next (endWith (illFormedEnding w) s) := by
  cases i <;> simp only [illFormed, reduceCtorEq] at h
  case wmc stn start qty coils =>
    simp only [exec, execWmc, any_badCoil, Nat.shiftRight_eq_div_pow]
    split at h
    · next hl => cases h; exact if_pos hl
    · next hl =>
      rw [if_neg hl]
      split at h
      · next hc => cases h; exact if_pos (by rw [hc]; rfl)
      · next hc =>
        rw [if_neg (by simpa using hc)]
        split at h
        · next hbc => cases h; exact if_pos hbc
        · cases h
  case wmr stn start qty values =>
    simp only [exec, execWmr]
    split at h
    · next hl => cases h; exact if_pos hl
    · next hl =>
      rw [if_neg hl]
      split at h
      · next hbc => cases h; exact if_pos hbc
      · cases h

/-- A well-formed request goes on to the buffer check with the table's body of it (R80, R130). -/
theorem exec_of_wellFormed {i : Instr} {body : List Byte} {s : State}
    (hbody : requestBody s.cfg.wmcMode i = some body) (hwf : wellFormed s.cfg.wmcMode i = true) :
    exec i s = emit (valueCount i) body s := by
  cases i <;> cases hbody
  case wmc stn start qty coils =>
    obtain ⟨hl, hc, hbc⟩ := wellFormed_wmc_iff.1 hwf
    simp only [exec, execWmc, any_badCoil, Nat.shiftRight_eq_div_pow]
    rw [if_neg (not_not.2 hl), if_neg (by simpa using hc), if_neg (Nat.not_lt.2 hbc),
      coilBytes_eq_coilData qty hc]
    rfl
  case wmr stn start qty values =>
    obtain ⟨hl, hbc⟩ := wellFormed_wmr_iff.1 hwf
    simp only [exec, execWmr]
    rw [if_neg (not_not.2 hl), if_neg (Nat.not_lt.2 hbc)]
    rfl
  all_goals rfl

/-- An ill-formed command ends in the outcome of its check and changes nothing else. -/
theorem request_ends {i : Instr} {w : IllFormed} {s : State} (h : illFormed s.cfg.wmcMode i = some w) :
    ∃ t, exec i s = .next t ∧ Ended (illFormedEnding w) s t := ⟨_, exec_of_illFormed h, rfl⟩

/-- Storing a frame is what R131 asks: the frame, its length, its checksum, and nothing else. -/
theorem requestBuilt_storeFrame (body : List Byte) (s : State) :
    RequestBuilt s body (storeFrame body s) where
  frame := txFrame_storeFrame body s
  length := by rw [storeFrame_eq]
  checksum := by rw [storeFrame_eq]
  phase := by rw [storeFrame_eq]
  beyond k hk := by rw [read_storeFrame, if_neg (Nat.not_lt.2 hk)]
  rest := by rw [storeFrame_eq]

section
variable {i : Instr} {body : List Byte} {n : Nat} {s : State}
  (hbody : requestBody s.cfg.wmcMode i = some body) (hwf : wellFormed s.cfg.wmcMode i = true)
  (hlen : body.length + 2 = n)
include hbody hwf hlen

/-- A well-formed request without room for its frame of `n` bytes, or with more values than there are,
is refused (R147). -/
theorem request_overflows (h : s.cfg.txBufMax < n ∨ s.cfg.nvMax < valueCount i) :
    ∃ t, exec i s = .next t ∧ Ended (.refused .bufferOverflow) s t := by
  subst hlen
  exact ⟨_, (exec_of_wellFormed hbody hwf).trans (if_pos h), rfl⟩

/-- A well-formed request with room for its frame of `n` bytes builds it (R131). -/
theorem request_builds (hroom : n ≤ s.cfg.txBufMax) (hn : valueCount i ≤ s.cfg.nvMax) :
    ∃ t, exec i s = .next t ∧ t.txLen = n ∧ RequestBuilt s body t := by
  subst hlen
  have hbuilt := requestBuilt_storeFrame body s
  exact ⟨_, (exec_of_wellFormed hbody hwf).trans (if_neg (by omega)), hbuilt.length, hbuilt⟩

end

end Sys2Proof.Machine
end

section
/-! PROOFS. The requests one by one (41_encode.md R132 to R148): each is a row of the table, its format's length
the one of R80, its checks those of R130. -/

namespace Sys2Proof.Machine

/-! ## Without values -/

/-- Settles O20: formats Q-AQ take 8 bytes and are always well formed. -/
theorem readRequestsBuildTheirFrame : Obligations.ReadRequestsBuildTheirFrame := by
  intro s stn start qty hroom
  refine ⟨?_, ?_, ?_, ?_⟩ <;> exact request_builds rfl rfl rfl hroom (Nat.zero_le _)

/-- Settles O21: formats Q-AV take 8 bytes and are always well formed. -/
theorem singleWriteRequestsBuildTheirFrame : Obligations.SingleWriteRequestsBuildTheirFrame := by
  intro s stn addr value hroom
  constructor <;> exact request_builds rfl rfl rfl hroom (Nat.zero_le _)

/-- Settles O22: format Q-N takes 4 bytes and is always well formed. -/
theorem noPayloadRequestsBuildTheirFrame : Obligations.NoPayloadRequestsBuildTheirFrame := by
  intro s stn hroom
  refine ⟨?_, ?_, ?_, ?_⟩ <;> exact request_builds rfl rfl rfl hroom (Nat.zero_le _)

/-! ## Diagnostics -/

/-- Settles O23: DIAG is always well formed, and each data word takes two bytes. -/
theorem diagBuildsAnyNumberOfWords : Obligations.DiagBuildsAnyNumberOfWords := by
  intro s stn sub data
  have hlen : ([stn, 0x08] ++ be16 sub ++ be16s data).length + 2 = 6 + 2 * data.length := by
    rw [List.length_append, length_be16s]
    exact Nat.add_right_comm 4 _ 2
  have hbody : requestBody s.cfg.wmcMode (.diag stn sub data) =
      some ([stn, 0x08] ++ be16 sub ++ be16s data) := rfl
  exact ⟨request_builds hbody rfl hlen, request_overflows hbody rfl hlen⟩

/-! ## Write Multiple Registers -/

/-- Settles O24: the checks of R130 in their order, and two bytes per register. -/
theorem wmrChecksThenBuilds : Obligations.WmrChecksThenBuilds := by
  intro s stn start qty values
  have hwf (hl : values.length = qty.toNat) (hbc : 2 * qty.toNat ≤ 255) :
      wellFormed s.cfg.wmcMode (.wmr stn start qty values) = true := wellFormed_wmr_iff.2 ⟨hl, hbc⟩
  have hlen (hl : values.length = qty.toNat) :
      ([stn, 0x10] ++ be16 start ++ be16 qty ++ [BitVec.ofNat 8 (2 * qty.toNat)]
        ++ be16s values).length + 2 = 9 + 2 * qty.toNat := by
    rw [length_blockWrite, length_be16s, hl]
  exact ⟨fun hl => request_ends (illFormed_of_count (.inr rfl) hl),
    fun hl hbc => request_ends (illFormed_wmr_byteCount hl hbc),
    fun hl hbc => request_overflows rfl (hwf hl hbc) (hlen hl),
    fun hl hbc => request_builds rfl (hwf hl hbc) (hlen hl)⟩

/-! ## Write Multiple Coils -/

/-- Settles O25: the checks of R130 in their order, the buffer against the length of the mode's coil data. -/
theorem wmcChecksInOrder : Obligations.WmcChecksInOrder := by
  rintro s stn start qty coils inRange m hrange rfl
  simp only [← coilInRange_iff] at hrange
  rw [hrange]
  refine ⟨fun hl => request_ends (illFormed_of_count (.inl rfl) hl),
    fun hl hc => request_ends (illFormed_wmc_coilValue hl hc),
    fun hl hc hbc => request_ends (illFormed_wmc_byteCount hl hc hbc), fun hl hc hbc => ?_⟩
  rw [← length_coilData s.cfg.wmcMode hl]
  exact request_overflows rfl (wellFormed_wmc_iff.2 ⟨hl, hc, hbc⟩) (length_blockWrite ..)

/-- A well-formed Write Multiple Coils command with room for its frame builds it, its coil data that of the
mode (R142). -/
theorem wmc_builds {s : State} {mode : WmcMode} {start qty : Word} {coils : List Word} (stn : Byte)
    (hmode : s.cfg.wmcMode = mode) (hl : coils.length = qty.toNat)
    (hc : ∀ c ∈ coils, coilInRange mode c = true) (hbc : (qty.toNat + 7) / 8 ≤ 255)
    (hroom : 9 + (coilData mode qty coils).length ≤ s.cfg.txBufMax) (hn : coils.length ≤ s.cfg.nvMax) :
    ∃ t, exec (.wmc stn start qty coils) s = .next t ∧
      t.txLen = 9 + (coilData mode qty coils).length ∧
      RequestBuilt s ([stn, 0x0F] ++ be16 start ++ be16 qty ++ [BitVec.ofNat 8 ((qty.toNat + 7) / 8)]
        ++ coilData mode qty coils) t := by
  subst hmode
  exact request_builds rfl (wellFormed_wmc_iff.2 ⟨hl, hc, hbc⟩) (length_blockWrite ..) hroom hn

/-- Settles O26: in `literal` mode the coil data is the low bytes of the coils. -/
theorem wmcLiteralBuildsOneByteEach : Obligations.WmcLiteralBuildsOneByteEach := by
  intro s stn start qty coils hmode hl hc hbc hroom hn
  have hdata : (coilData .literal qty coils).length = qty.toNat := length_coilData .literal hl
  have hbuilt := wmc_builds (start := start) stn hmode hl
    (fun c hm => coilInRange_iff.2 ⟨hc c hm, nofun⟩) hbc (hdata ▸ hroom) hn
  rwa [hdata] at hbuilt

/-- Settles O27: in `packed` mode the coil data is the table's packed bytes, whose bits are the coils. -/
theorem wmcPackedPlacesEachCoil : Obligations.WmcPackedPlacesEachCoil := by
  intro s stn start qty coils hmode hl hc hbc hroom hn
  have hdata : (coilData .packed qty coils).length = (qty.toNat + 7) / 8 := length_coilData .packed hl
  refine ⟨coilData .packed qty coils, hdata, fun i hi => ?_, ?_⟩
  · rw [coilData, getLsbD_packBytes hc (by omega) (Nat.mod_lt i (by omega)), Nat.div_add_mod]
  · have hbuilt := wmc_builds (start := start) stn hmode hl
      (fun c hm => coilInRange_packed_iff.2 (hc c hm)) hbc (hdata ▸ hroom) hn
    rwa [hdata] at hbuilt

/-! ## The argument count -/

/-- DIAG never ends in the count failure: it is refused for the buffer, or its frame is stored (R139). -/
theorem diag_not_argCount {s t : State} {stn : Byte} {sub : Word} {data : List Word}
    (hp : s.pending = .nothing) (h : exec (.diag stn sub data) s = .next t) :
    t.pending ≠ .ending (.fail .argCount) := by
  rw [exec_of_wellFormed rfl rfl] at h
  rcases emit_cases _ _ s with ⟨-, he⟩ | ⟨-, -, he⟩ <;> cases he.symm.trans h
  · exact nofun
  · rw [storeFrame_eq]
    simp [hp]

/-- Settles O28: a wrong count is the first check, so the next step writes the ArgCount row of R218 and
leaves the rest as the start left it. -/
theorem argCountNeverReachesTheTransport : Obligations.ArgCountNeverReachesTheTransport := by
  refine ⟨fun s i stn start qty values hi hl hq => ?_, fun _ _ _ _ _ => diag_not_argCount⟩
  exact ⟨_, _, exec_of_illFormed (illFormed_of_count hi hl), step_endWith _ hq, rfl, rfl, rfl, rfl, rfl,
    rfl, rfl, rfl, rfl, rfl, rfl, fun hinv hp => hinv.txEmpty (.inl hp)⟩

end Sys2Proof.Machine
end

section
/-! PROOFS. The checksum test of a response (42_validate_decode.md R162): the CRC step is one-to-one in the
accumulator, so a frame passes exactly when its residue is 0 (40_crc.md R117), and zero bytes keep that residue. -/

namespace Sys2Proof

/-- Only 0 iterates to 0: a tested 1 leaves bit 15 of the polynomial set (R111). -/
theorem eq_zero_of_crcIter_eq_zero {c : Word} (h : crcIter c = 0) : c = 0 := by
  cases hlsb : c.getLsbD 0 with
  | true =>
    have h15 := ((crcIterationBits c).1 hlsb).1
    rw [h] at h15
    exact absurd h15 (by decide)
  | false =>
    rw [crcIter_of_not_lsb hlsb] at h
    ext k hk
    cases k with
    | zero => simpa using hlsb
    | succ k => simpa [Nat.add_comm, BitVec.getLsbD_eq_getElem hk] using congrArg (·.getLsbD k) h

theorem crcIters_injective (n : Nat) : Function.Injective (crcIters n) := by
  induction n with
  | zero => exact fun _ _ h => h
  | succ n ih =>
    intro c d h
    have hstep : crcIter c = crcIter d := ih h
    refine BitVec.xor_eq_zero_iff.1 (eq_zero_of_crcIter_eq_zero ?_)
    rw [crcIter_xor, hstep, BitVec.xor_self]
    rfl

theorem crcStep_left_injective (b : Byte) : Function.Injective (crcStep · b) := fun _ _ h =>
  (BitVec.xor_left_inj _).1 (crcIters_injective 8 h)

/-- Two bytes bring the accumulator to 0 exactly when they are its own, low byte first. -/
theorem crcStep_crcStep_eq_zero_iff {c : Word} {lo hi : Byte} :
    crcStep (crcStep c lo) hi = 0 ↔ c = joinBytes hi lo := by
  have hself : crcStep (crcStep (joinBytes hi lo) lo) hi = 0 := by
    have hlo := crcStep_loByte (joinBytes hi lo)
    rw [loByte_joinBytes, hiByte_joinBytes] at hlo
    rw [hlo, crcStep_self]
  constructor
  · intro h
    exact crcStep_left_injective lo (crcStep_left_injective hi (h.trans hself.symm))
  · rintro rfl
    exact hself

end Sys2Proof

namespace Sys2Proof.Machine

/-- A frame passes the checksum test exactly when its residue is 0 (R117, R162). -/
theorem checksumOk_iff {r : List Byte} (h2 : 2 ≤ r.length) : checksumOk r = true ↔ crc16 r = 0 := by
  have htwo : (r.drop (r.length - 2)).length = 2 := by rw [List.length_drop]; omega
  obtain ⟨lo, hi, hlast⟩ := List.length_eq_two.1 htwo
  obtain ⟨body, rfl⟩ : ∃ body, r = body ++ [lo, hi] :=
    ⟨r.take (r.length - 2), by rw [← hlast, List.take_append_drop]⟩
  have hok : checksumOk (body ++ [lo, hi]) = true ↔ crc16 body = joinBytes hi lo := by simp [checksumOk]
  rw [hok, crc16_append]
  exact crcStep_crcStep_eq_zero_iff.symm

theorem checksumOk_withCrc (body : List Byte) : checksumOk (withCrc body) = true :=
  (checksumOk_iff (by rw [length_withCrc]; omega)).2 (crc16_withCrc body)

/-- Settles O48: the frame has residue 0, and a zero byte takes residue 0 to residue 0. -/
theorem trailingZerosPassTheChecksum : Obligations.TrailingZerosPassTheChecksum := by
  intro body k
  rw [checksumOk_iff (by rw [List.length_append, length_withCrc]; omega), crc16_append, crc16_withCrc]
  induction k with
  | zero => rfl
  | succ k ih =>
    have hzero : crcStep 0 0 = 0 := crcStep_self 0
    rw [List.replicate_succ, List.foldl_cons, hzero, ih]

end Sys2Proof.Machine
end

section
/-! PROOFS. The typed decoders (30_encoding.md R82, 42_validate_decode.md R165 to R175): each reads the frame
built for a result back as that result, and answers a layout mismatch on a frame of another length. -/

namespace Sys2Proof.Machine

/-! ## Frames read back -/

theorem bitsResult_frame {stn fn bc : Byte} {octets : List Byte} (hn : octets.length = bc.toNat) :
    bitsResult (withCrc ([stn, fn, bc] ++ octets)) = .ok (.bits stn fn bc octets) := by
  simp +arith [withCrc, le16, bitsResult, ← hn]

theorem regsResult_frame {stn fn bc : Byte} {ws : List Word} (hn : 2 * ws.length = bc.toNat) :
    regsResult (withCrc ([stn, fn, bc] ++ be16s ws)) = .ok (.regs stn fn bc ws) := by
  have hws : wordsOf (be16s ws) = some ws := wordsOf_eq_some_iff.2 rfl
  simp +arith [withCrc, le16, regsResult, ← hn, hws]

theorem echoResult_frame (stn fn : Byte) (address value : Word) :
    echoResult (withCrc ([stn, fn] ++ be16 address ++ be16 value)) = .ok (.echo stn fn address value) := by
  simp [withCrc, le16, be16, echoResult]

theorem counterResult_frame (stn fn : Byte) (status eventCount : Word) :
    counterResult (withCrc ([stn, fn] ++ be16 status ++ be16 eventCount)) =
      .ok (.counter stn fn status eventCount) := by
  simp [withCrc, le16, be16, counterResult]

theorem logResult_frame {stn fn bc : Byte} {status eventCount messageCount : Word} {events : List Byte}
    (hn : events.length + 6 = bc.toNat) :
    logResult (withCrc ([stn, fn, bc] ++ be16 status ++ be16 eventCount ++ be16 messageCount ++ events)) =
      .ok (.log stn fn bc status eventCount messageCount events) := by
  simp +arith [withCrc, le16, be16, logResult, ← hn]

/-- A structured result that fits a code: its frame carries the code after the station, and is read back by
the row that the code selects (R86, R181). -/
theorem frame_of_fits {res : Result} {fn : Byte} (h : Result.fits res fn = true) :
    ∃ i stn payload, decodeSuccess fn = .ok i ∧ res.frame = withCrc (stn :: fn :: payload) ∧
      structuredResult fn res.frame = .ok res := by
  cases res <;> simp only [Result.fits, Bool.and_eq_true, Bool.or_eq_true, beq_iff_eq, reduceCtorEq] at h
  case bits =>
    obtain ⟨⟨rfl, rfl | rfl⟩, hn⟩ := h <;> exact ⟨_, _, _, rfl, rfl, bitsResult_frame hn⟩
  case regs =>
    obtain ⟨⟨rfl, rfl | rfl⟩, hn⟩ := h <;> exact ⟨_, _, _, rfl, rfl, regsResult_frame hn⟩
  case echo =>
    obtain ⟨rfl, rfl | rfl⟩ := h <;> exact ⟨_, _, _, rfl, rfl, echoResult_frame ..⟩
  case status =>
    obtain ⟨rfl, rfl⟩ := h
    exact ⟨_, _, _, rfl, rfl, rfl⟩
  case counter =>
    obtain ⟨rfl, rfl⟩ := h
    exact ⟨_, _, _, rfl, rfl, counterResult_frame ..⟩
  case log =>
    obtain ⟨⟨rfl, rfl⟩, hn⟩ := h
    exact ⟨_, _, _, rfl, rfl, logResult_frame hn⟩

/-! ## Layout mismatches -/

section
variable {r : List Byte}

theorem bitsResult_mismatch (h : ¬ (5 ≤ r.length ∧ r.length = 5 + (r.getD 2 0).toNat)) :
    bitsResult r = .refused .layoutMismatch := by
  match r with
  | [] | [_] | [_, _] => rfl
  | _ :: _ :: _ :: _ => exact if_neg fun hl => h ⟨by omega, hl⟩

theorem regsResult_mismatch
    (h : ¬ (5 ≤ r.length ∧ r.length = 5 + (r.getD 2 0).toNat ∧ (r.getD 2 0).toNat % 2 = 0)) :
    regsResult r = .refused .layoutMismatch := by
  match r with
  | [] | [_] | [_, _] => rfl
  | _ :: _ :: _ :: _ => exact if_neg fun hl => h ⟨by omega, hl⟩

theorem echoResult_mismatch (h : r.length ≠ 8) : echoResult r = .refused .layoutMismatch := by
  rw [echoResult]
  rintro _ _ _ _ _ _ _ _ rfl
  exact h rfl

theorem statusResult_mismatch (h : r.length ≠ 5) : statusResult r = .refused .layoutMismatch := by
  rw [statusResult]
  rintro _ _ _ _ _ rfl
  exact h rfl

theorem counterResult_mismatch (h : r.length ≠ 8) : counterResult r = .refused .layoutMismatch := by
  rw [counterResult]
  rintro _ _ _ _ _ _ _ _ rfl
  exact h rfl

theorem logResult_mismatch (h : ¬ (11 ≤ r.length ∧ r.length = 5 + (r.getD 2 0).toNat)) :
    logResult r = .refused .layoutMismatch := by
  unfold logResult
  split
  · exact if_neg fun hl => h ⟨hl.2, hl.1⟩
  · rfl

end

end Sys2Proof.Machine
end

section
/-! PROOFS. The response rows one by one (42_validate_decode.md R162 to R179): the checksum, then the whole
frame or the row's decoder, in the state whose CRC is the frame's. -/

namespace Sys2Proof.Machine

/-! ## What a success row answers -/

/-- No code outside the catalogue has a success row (R25, R86). -/
theorem decodeSuccess_uncatalogued {fn : Byte} (h : ¬ catalogued fn = true) :
    decodeSuccess fn = .error (.latchOutsideCatalogue fn) := by
  unfold catalogued at h
  unfold decodeSuccess
  split at h <;> simp_all

theorem catalogued_of_decodeSuccess {fn : Byte} {i : Instr} (h : decodeSuccess fn = .ok i) :
    catalogued fn = true := by
  by_contra hc
  cases (decodeSuccess_uncatalogued hc).symm.trans h

theorem successOutcome_of_ok {fn : Byte} {r : List Byte} {raw : Bool} (hsum : checksumOk r = true) :
    successOutcome fn raw r = if raw then .ok (.raw r) else structuredResult fn r := by
  rw [successOutcome, if_neg (by simp [hsum])]

section
variable {fn : Byte} {i : Instr} {s : State} {r : List Byte} (hi : decodeSuccess fn = .ok i)
  (hr : rxFrame s = .ok r) (h4 : 4 ≤ r.length)
include hi hr h4

/-- A success row ends in the typed outcome of steps 6 and 7. -/
theorem row_checked : ∃ t, exec i s = .next t ∧ Checked (successOutcome fn s.reqRaw r) r s t := by
  obtain ⟨j, hj, hx⟩ := exec_success (catalogued_of_decodeSuccess hi) hr (by omega)
  cases hi.symm.trans hj
  exact ⟨_, hx, rfl⟩

/-- Without the raw flag a success row ends in what its decoder makes of a verified frame. -/
theorem row_decodes {e : Ending} (hsum : checksumOk r = true) (hraw : s.reqRaw = false)
    (he : structuredResult fn r = e) : ∃ t, exec i s = .next t ∧ Checked e r s t := by
  have h := row_checked hi hr h4
  rwa [successOutcome_of_ok hsum, hraw, if_neg Bool.false_ne_true, he] at h

end

/-- A frame as it is sent is long enough and verified. -/
theorem row_decodes_frame {fn stn f : Byte} {payload : List Byte} {i : Instr} {s : State} {e : Ending}
    (hi : decodeSuccess fn = .ok i) (hr : rxFrame s = .ok (withCrc (stn :: f :: payload)))
    (hraw : s.reqRaw = false) (he : structuredResult fn (withCrc (stn :: f :: payload)) = e) :
    ∃ t, exec i s = .next t ∧ Checked e (withCrc (stn :: f :: payload)) s t :=
  row_decodes hi hr (by simp) (checksumOk_withCrc _) hraw he

/-! ## The rows -/

/-- Settles O29: the checksum is tested before the raw flag. -/
theorem checksumThenRawFrame : Obligations.ChecksumThenRawFrame := by
  intro s fn i r hi hr h4
  obtain ⟨t, hx, ht⟩ := row_checked hi hr h4
  refine ⟨fun hsum => ?_, fun hsum hraw => ?_⟩
  · have hbad : checksumOk r = false := beq_eq_false_iff_ne.2 hsum
    rw [successOutcome, if_pos hbad] at ht
    refine ⟨t, hx, ht, fun hq => ?_⟩
    subst ht
    exact ⟨_, step_endWith _ hq, rfl, rfl, rfl, rfl, rfl, rfl, rfl⟩
  · rw [successOutcome_of_ok (beq_iff_eq.2 hsum), if_pos hraw] at ht
    exact ⟨t, hx, ht⟩

/-- Settles O30: both rows read S-BITS (R82). -/
theorem bitsResponsesDecode : Obligations.BitsResponsesDecode := by
  refine ⟨fun s stn fn bc octets hn hraw hr => ?_, fun s r hr h4 hsum hraw h => ?_⟩
  · have he := bitsResult_frame (stn := stn) (fn := fn) hn
    exact ⟨row_decodes_frame (fn := 0x01) rfl hr hraw he, row_decodes_frame (fn := 0x02) rfl hr hraw he⟩
  · have he := bitsResult_mismatch h
    exact ⟨row_decodes (fn := 0x01) rfl hr h4 hsum hraw he, row_decodes (fn := 0x02) rfl hr h4 hsum hraw he⟩

/-- Settles O31: both rows read S-REGS (R82). -/
theorem regsResponsesDecode : Obligations.RegsResponsesDecode := by
  refine ⟨fun s stn fn bc ws hn hraw hr => ?_, fun s r hr h4 hsum hraw h => ?_⟩
  · have he := regsResult_frame (stn := stn) (fn := fn) hn
    exact ⟨row_decodes_frame (fn := 0x03) rfl hr hraw he, row_decodes_frame (fn := 0x04) rfl hr hraw he⟩
  · have he := regsResult_mismatch h
    exact ⟨row_decodes (fn := 0x03) rfl hr h4 hsum hraw he, row_decodes (fn := 0x04) rfl hr h4 hsum hraw he⟩

/-- Settles O32: both rows read S-ECHO (R82). -/
theorem echoResponsesDecode : Obligations.EchoResponsesDecode := by
  refine ⟨fun s stn fn address value hraw hr => ?_, fun s r hr h4 hsum hraw h => ?_⟩
  · have he := echoResult_frame stn fn address value
    exact ⟨row_decodes_frame (fn := 0x05) rfl hr hraw he, row_decodes_frame (fn := 0x06) rfl hr hraw he⟩
  · have he := echoResult_mismatch h
    exact ⟨row_decodes (fn := 0x05) rfl hr h4 hsum hraw he, row_decodes (fn := 0x06) rfl hr h4 hsum hraw he⟩

/-- Settles O33: the rows read S-STATUS and S-CNT (R82). -/
theorem statusAndCounterResponsesDecode : Obligations.StatusAndCounterResponsesDecode :=
  ⟨fun _ _ _ _ hraw hr => row_decodes_frame (fn := 0x07) rfl hr hraw rfl,
    fun _ stn fn status eventCount hraw hr =>
      row_decodes_frame (fn := 0x0B) rfl hr hraw (counterResult_frame stn fn status eventCount),
    fun _ _ hr h4 hsum hraw =>
      ⟨fun h => row_decodes (fn := 0x07) rfl hr h4 hsum hraw (statusResult_mismatch h),
        fun h => row_decodes (fn := 0x0B) rfl hr h4 hsum hraw (counterResult_mismatch h)⟩⟩

/-- Settles O34: the row reads S-LOG (R82). -/
theorem logResponseDecodes : Obligations.LogResponseDecodes :=
  ⟨fun _ _ _ _ _ _ _ _ hn hraw hr => row_decodes_frame (fn := 0x0C) rfl hr hraw (logResult_frame hn),
    fun _ _ hr h4 hsum hraw h => row_decodes (fn := 0x0C) rfl hr h4 hsum hraw (logResult_mismatch h)⟩

/-- A row whose decoder gives the frame as it is gives it with the raw flag and without it. -/
theorem row_gives_frame {fn : Byte} {i : Instr} {s : State} {r : List Byte} (hi : decodeSuccess fn = .ok i)
    (hr : rxFrame s = .ok r) (h4 : 4 ≤ r.length) (hsum : checksumOk r = true)
    (he : structuredResult fn r = .ok (.raw r)) :
    ∃ t, exec i s = .next t ∧ Checked (.ok (.raw r)) r s t := by
  have h := row_checked hi hr h4
  rwa [successOutcome_of_ok hsum, he, ite_self] at h

/-- Settles O35: these four rows have no decoder of their own. -/
theorem rawResponsesGiveTheFrame : Obligations.RawResponsesGiveTheFrame := fun _ _ hr h4 hsum =>
  ⟨row_gives_frame (fn := 0x08) rfl hr h4 hsum rfl, row_gives_frame (fn := 0x0F) rfl hr h4 hsum rfl,
    row_gives_frame (fn := 0x10) rfl hr h4 hsum rfl, row_gives_frame (fn := 0x11) rfl hr h4 hsum rfl⟩

/-- The exception response ends in the device failure of the byte at offset 2 (R179). -/
theorem exec_exceptionResponse {s : State} {r : List Byte} (hr : rxFrame s = .ok r) (h4 : 4 ≤ r.length) :
    exec .exceptionResponse s = .next (endWith (.fail (.deviceException (r.getD 2 0))) s) := by
  have hcode : memReadByte .rxb 2 s = .ok (r.getD 2 0) := memReadByte_rxb hr (getElem?_eq_getD (by omega))
  rw [exec, execExceptionResponse, hcode, reading_ok]

/-- Settles O36: the next step writes the device row of R218, which shows no result. -/
theorem exceptionResponseFails : Obligations.ExceptionResponseFails := fun _ _ hr h4 hq =>
  ⟨_, _, exec_exceptionResponse hr h4, rfl, step_endWith _ hq, rfl, rfl, rfl, rfl, rfl, rfl, rfl, rfl⟩

end Sys2Proof.Machine
end

section
/-! PROOFS. The step in VALIDATE (42_validate_decode.md R160, R161, R164, R180, R181): length and function
byte decide first, and the rest is the typed validation of the response, which reads the latches and the
response alone. -/

namespace Sys2Proof.Machine

/-- What VALIDATE does with the reading of the function byte (R87, R161). -/
def functionByteAction (s : State) : Except Reject Instr → Action
  | .ok i => .run i s
  | .error (.illegalFunctionByte _) => .answer (.next (endWith (.fail .illegalErrorCode) s))
  | .error _ => .answer (.fault (.latchOutsideCatalogue s.reqFn))

section
variable {s : State} (hp : s.phase = .validate) (hq : quiet s = true)
include hp hq

/-- The length is tested before any byte is read (R160). -/
theorem step_validate_short (hl : s.rxLen < 4) : step s = .next (endWith (.fail .tooShort) s) := by
  rw [step_validate hp hq, validateAction, if_pos hl]
  rfl

variable {r : List Byte} (hr : rxFrame s = .ok r) (h4 : 4 ≤ r.length)
include hr h4

/-- From 4 bytes on, what the function byte decodes to decides. -/
theorem step_validate_long :
    step s = (functionByteAction s (decodeResponse s.reqFn (r.getD 1 0))).result := by
  rw [step_validate hp hq, validateAction, if_neg (Nat.not_lt.2 (rxFrame_length hr ▸ h4)),
    memReadByte_rxb hr (getElem?_eq_getD (k := 1) (by omega))]
  rfl

theorem step_validate_row {i : Instr} (hi : decodeResponse s.reqFn (r.getD 1 0) = .ok i) :
    step s = exec i s := by
  rw [step_validate_long hp hq hr h4, hi]
  rfl

/-- A function byte other than the latch ends the exchange with CRC untouched (R161). -/
theorem step_validate_foreign (hf : r.getD 1 0 ≠ s.reqFn) :
    step s = .next (endWith (if (r.getD 1 0).toNat = s.reqFn.toNat + 0x80
      then .fail (.deviceException (r.getD 2 0)) else .fail .illegalErrorCode) s) := by
  by_cases h80 : (r.getD 1 0).toNat = s.reqFn.toNat + 0x80
  · rw [step_validate_row hp hq hr h4 ((if_neg hf).trans (if_pos h80)), exec_exceptionResponse hr h4,
      if_pos h80]
  · rw [step_validate_long hp hq hr h4, decodeResponse, if_neg hf, if_neg h80, if_neg h80]
    rfl

theorem step_validate_uncatalogued (hf : r.getD 1 0 = s.reqFn) (hc : ¬ catalogued s.reqFn = true) :
    step s = .fault (.latchOutsideCatalogue s.reqFn) := by
  rw [step_validate_long hp hq hr h4, decodeResponse, if_pos hf, decodeSuccess_uncatalogued hc]
  rfl

end

/-- Settles O37: step 4 ends the exchange, and the next step writes its row of R218. -/
theorem shortResponsesFailWhateverTheyHold : Obligations.ShortResponsesFailWhateverTheyHold :=
  fun _ hp hq hl => ⟨_, step_validate_short hp hq hl, rfl, _, step_endWith _ hq,
    rfl, rfl, rfl, rfl, rfl, rfl, rfl⟩

/-- Settles O38: step 5 ends the exchange, and the next step writes its row of R218. -/
theorem functionByteDecidesBeforeChecksum : Obligations.FunctionByteDecidesBeforeChecksum := by
  intro s r hp hq hr h4 hf
  rw [step_validate_foreign hp hq hr h4 hf]
  refine ⟨fun h80 => ?_, fun h80 => ?_⟩
  · rw [if_pos h80]
    exact ⟨_, rfl, rfl⟩
  · rw [if_neg h80]
    exact ⟨_, rfl, rfl, _, step_endWith _ hq, rfl, rfl, rfl, rfl, rfl, rfl, rfl⟩

/-- Settles O39: VALIDATE takes the step of its phase, which computes the typed validation. -/
theorem validateStepAgreesWithTypedView : Obligations.ValidateStepAgreesWithTypedView :=
  fun _ _ hp hq hr hc => (step_validate hp hq).trans (validateAction_eq hr hc)

/-- Settles O40: the function byte of the frame selects the row of the code, and the row reads the frame
back. -/
theorem everyResultRoundTrips : Obligations.EveryResultRoundTrips := by
  intro s res hp hq hraw hfits hr
  obtain ⟨i, stn, payload, hi, hframe, hres⟩ := frame_of_fits hfits
  rw [hframe] at hr hres ⊢
  have hrow : decodeResponse s.reqFn ((withCrc (stn :: s.reqFn :: payload)).getD 1 0) = .ok i :=
    (if_pos rfl).trans hi
  rw [step_validate_row hp hq hr (by simp) hrow]
  exact row_decodes_frame hi hr hraw hres

/-- The typed validation of the response waits after VALIDATE even where no decoder exists for the latch,
as long as step 6 is not reached (R160, R161). -/
theorem step_validate_ends {s : State} {r : List Byte} (hp : s.phase = .validate) (hq : quiet s = true)
    (hr : rxFrame s = .ok r) (hc : 4 ≤ r.length → r.getD 1 0 = s.reqFn → catalogued s.reqFn = true) :
    ∃ c, step s = .next (endWith (validateResponse s.reqFn s.reqRaw r) { s with crc := c }) := by
  by_cases h4 : r.length < 4
  · rw [validateResponse, if_pos h4]
    exact ⟨s.crc, step_validate_short hp hq (rxFrame_length hr ▸ h4)⟩
  · by_cases hf : r.getD 1 0 = s.reqFn
    · exact ⟨_, (step_validate hp hq).trans (validateAction_eq hr (hc (Nat.le_of_not_lt h4) hf))⟩
    · rw [validateResponse, if_neg h4, if_pos hf]
      exact ⟨s.crc, step_validate_foreign hp hq hr (Nat.le_of_not_lt h4) hf⟩

/-- Settles O41: a step that goes on has a decoder where it needs one, and then both blocks end in the typed
validation, a function of the latches and the response. -/
theorem outcomeDependsOnLatchesAndResponse : Obligations.OutcomeDependsOnLatchesAndResponse := by
  intro s s' t r hp hp' hq hq' hr hr' hfn hraw h
  have hc : 4 ≤ r.length → r.getD 1 0 = s.reqFn → catalogued s.reqFn = true := fun h4 hf => by
    by_contra hn
    cases (step_validate_uncatalogued hp hq hr h4 hf hn).symm.trans h
  obtain ⟨c, hs⟩ := step_validate_ends hp hq hr hc
  obtain ⟨c', hs'⟩ := step_validate_ends hp' hq' hr' (hfn ▸ hc)
  cases hs.symm.trans h
  exact ⟨_, hs', by simp [hfn, hraw], rfl⟩

end Sys2Proof.Machine
end

section
/-! PROOFS. The exception-code table of unit XLT (43_exception_lookup.md R200): where the code is defined,
the message id is the code itself. -/

namespace Sys2Proof.Machine

/-- The codes of R200's table. -/
def definedExceptionCodes : List Nat := [0x00, 0x01, 0x02, 0x03, 0x04, 0x05, 0x06, 0x08, 0x0A, 0x0B]

theorem lt_sixteen_of_mem_definedExceptionCodes : ∀ n ∈ definedExceptionCodes, n < 16 := by decide

/-- The arms of the lookup: the ten defined codes, and the fallback. -/
theorem xrom_eq_ite (c : Byte) :
    xrom c = if c.toNat ∈ definedExceptionCodes then c.setWidth 4 else 0 := by
  unfold xrom
  split <;> simp_all [definedExceptionCodes]

/-- A defined code stands in 4 bits without loss. -/
theorem xrom_toNat_of_defined {c : Byte} (h : c.toNat ∈ definedExceptionCodes) :
    (xrom c).toNat = c.toNat := by
  rw [xrom_eq_ite, if_pos h, BitVec.toNat_setWidth,
    Nat.mod_eq_of_lt (lt_sixteen_of_mem_definedExceptionCodes _ h)]

theorem xrom_of_undefined {c : Byte} (h : c.toNat ∉ definedExceptionCodes) : xrom c = 0 :=
  (xrom_eq_ite c).trans (if_neg h)

/-- Settles O49: the port puts the table's id and nothing else; the ten texts are read off row by row. -/
theorem xltLookupTable : Obligations.XltLookupTable :=
  ⟨fun _ c => ⟨xrom c, rfl, xrom_toNat_of_defined, xrom_of_undefined⟩, by decide⟩

end Sys2Proof.Machine
end

section
/-! PROOFS. The operations one by one (44_exchange.md R211 to R225): what a step runs, how a start, SEND, RECEIVE
and DONE answer, and how OPEN and CLOSE follow the transport. -/

namespace Sys2Proof.Machine

/-! ## What a step runs -/

/-- Settles O19: in ENCODE and VALIDATE the phase's own step asks the decoder; a port word that decodes is what
its event runs. -/
theorem stepRunsTheDecodedInstruction : Obligations.StepRunsTheDecodedInstruction := by
  refine ⟨fun s w i hp hq hw hi => ?_, fun s f i hp hq h4 hf hi => ?_, fun s init en din rest i hl hi => ?_,
    fun s c rest i hl hi => ?_, fun s kind rest i hl hi => ?_⟩
  · simp only [step_encode hp hq, encodeAction, hw, hi]
    rfl
  · simp only [step_validate hp hq, validateAction, if_neg (Nat.not_lt.2 h4), hf, hi]
    rfl
  · cases hi
    exact step_of_lands hl
  · cases hi
    exact step_of_lands hl
  · have hkind : decodeCmdKind kind = .ok i := hi
    simp only [step_of_lands hl, hostAction, hkind]
    rfl

/-! ## A start -/

/-- A start that lands in IDLE begins an exchange (R211). -/
theorem step_start {s : State} {rest : List HostInput} (hp : s.phase = .idle)
    (hl : lands (.command 1) rest s) : step s = .next (startExchange { s with hostIn := rest }) := by
  rw [step_of_lands hl]
  show hostStart _ = _
  rw [hostStart, busy, hp]
  rfl

/-- Settles O50: the latches take the registers' values where they have one, and while busy only `rst` touches
the registers. -/
theorem startLatchesTheCommand : Obligations.StartLatchesTheCommand := by
  refine ⟨fun s rest hp hl => ⟨_, _, step_start hp hl, fun g hg => ?_, fun y hy => ?_⟩,
    fun s t hp hr h => (onlyTheHostWritesCommandRegisters s t h).2 hr hp⟩
  · show s.fn.getD _ = g
    rw [hg]
    rfl
  · show s.raw.getD _ = y
    rw [hy]
    rfl

/-! ## SEND and RECEIVE -/

/-- A failure that waits in DONE leaves the mark of the run as it is (R16). -/
theorem endWith_fail (f : Failure) (s : State) :
    endWith (.fail f) s = { s with phase := .done, pending := .ending (.fail f) } := by
  simp [endWith, Ending.reason]

/-- A transport failure that was just met is written by the next step, without a further call (R218, R224). -/
theorem writesTransportFailure_endWith (e : TransportError) {s : State} (hq : quiet s = true) :
    WritesTransportFailure e (endWith (.fail (.transportFailure e)) s) :=
  ⟨_, step_endWith _ hq, rfl, rfl, rfl, rfl, rfl, rfl, rfl⟩

section
variable {s : State} {f : List Byte} {rest : List CallAnswer}
  (hp : s.phase = .send) (hq : quiet s = true) (hf : txFrame s = .ok f)
include hp hq hf

/-- `Ok` to the `send` turns the block to the response (R213). -/
theorem step_send_ok (hans : s.lineAns = .ok :: rest) :
    step s = .next { s with lineAns := rest, calls := s.calls ++ [.send f], phase := .receive } := by
  rw [step_send hp hq, sendStep, hans, hf]
  rfl

/-- `Err(e)` to the `send` ends the exchange (R213). -/
theorem step_send_err {e : TransportError} (hans : s.lineAns = .err e :: rest) :
    step s = .next (endWith (.fail (.transportFailure e))
      { s with lineAns := rest, calls := s.calls ++ [.send f] }) := by
  rw [step_send hp hq, sendStep, hans, hf]
  rfl

end

/-- Settles O53, answer by answer. -/
theorem sendCallsOnceAndFollowsTheAnswer : Obligations.SendCallsOnceAndFollowsTheAnswer := by
  intro s f hp hq hf
  refine ⟨fun rest hans => step_send_ok hp hq hf hans, fun e rest hans => ?_, fun hnone => ?_⟩
  · exact ⟨_, step_send_err hp hq hf hans, writesTransportFailure_endWith e hq, endWith_fail _ _⟩
  · rw [step_send hp hq, sendStep, hnone]

section
variable {s : State} {rest : List ReadAnswer} (hp : s.phase = .receive) (hq : quiet s = true)
include hp hq

/-- A response that fits goes to RXB (R215). -/
theorem step_receive_bytes {r : List Byte} (hans : s.readAns = .bytes r :: rest)
    (hl : r.length ≤ s.cfg.rxBufMax) :
    step s = .next { s with
      readAns := rest, calls := s.calls ++ [.read], rxb := writeBytes s.rxb 0 r, rxLen := r.length
      phase := .validate } := by
  rw [step_receive hp hq, receiveStep, hans]
  exact if_neg (Nat.not_lt.2 hl)

/-- A response that is too long ends the exchange (R219). -/
theorem step_receive_overflow {r : List Byte} (hans : s.readAns = .bytes r :: rest)
    (hl : s.cfg.rxBufMax < r.length) :
    step s = .next (endWith (.refused .bufferOverflow)
      { s with readAns := rest, calls := s.calls ++ [.read] }) := by
  rw [step_receive hp hq, receiveStep, hans]
  exact if_pos hl

/-- `Err(e)` to the `read` ends the exchange (R215). -/
theorem step_receive_err {e : TransportError} (hans : s.readAns = .err e :: rest) :
    step s = .next (endWith (.fail (.transportFailure e))
      { s with readAns := rest, calls := s.calls ++ [.read] }) := by
  rw [step_receive hp hq, receiveStep, hans]

end

/-- Settles O54, answer by answer; the bytes stored are read back in order. -/
theorem receiveStoresTheResponse : Obligations.ReceiveStoresTheResponse := by
  intro s hp hq
  refine ⟨fun r rest hans hl => ⟨_, step_receive_bytes hp hq hans hl, fun k hk => ?_, fun k hk => ?_⟩,
    fun r rest hans hl => ⟨_, step_receive_overflow hp hq hans hl, rfl, rfl, rfl⟩,
    fun e rest hans => ?_, fun hnone => ?_⟩
  · rw [read_writeBytes, if_pos (by omega)]
    rfl
  · rw [read_writeBytes, if_neg (by omega)]
  · exact ⟨_, step_receive_err hp hq hans, writesTransportFailure_endWith e hq, endWith_fail _ _⟩
  · rw [step_receive hp hq, receiveStep, hnone]

/-! ## DONE -/

/-- Finishing writes the registers R218 sets for the outcome. -/
theorem outcomeWritten_finish (e : Ending) (s : State) : OutcomeWritten e (finish e s) where
  valid := rfl
  idle := rfl
  kind := rfl
  code c hc := by rw [finish_resCode, show e.code s.cfg = some c from hc]; rfl
  message m hm := by rw [finish_resMsg, hm]; rfl
  refuse r hr := by rw [finish_resRefuse, hr]; rfl
  request := rfl
  response := rfl
  cause x hx := by rw [finish_xerr, hx]; rfl

/-- Settles O55: the row of each outcome is what finishing writes. -/
theorem doneWritesTheOutcomeTable : Obligations.DoneWritesTheOutcomeTable := by
  intro s e hp hq he
  refine ⟨_, step_ending hp hq he, outcomeWritten_finish e s, sameCommand_refl s, rfl, rfl, rfl, rfl, rfl, rfl,
    rfl, rfl, rfl, rfl, rfl, rfl, rfl, ?_, ?_, ?_, ?_, ?_, ?_, ?_, ?_⟩
  · rintro res rfl
    exact ⟨rfl, rfl, rfl⟩
  · rintro rfl
    exact ⟨rfl, rfl, rfl, rfl, rfl, fun hi => hi.txEmpty (.inr he)⟩
  · rintro rfl
    exact ⟨rfl, rfl, rfl, rfl, rfl⟩
  · rintro rfl
    exact ⟨rfl, rfl, rfl, rfl, rfl⟩
  · rintro rfl
    exact ⟨rfl, rfl, rfl, rfl, rfl⟩
  · rintro x rfl
    exact ⟨rfl, rfl, rfl, rfl, rfl⟩
  · rintro x rfl
    exact ⟨rfl, rfl, rfl, rfl⟩
  · rintro r rfl
    exact ⟨rfl, rfl, rfl, rfl⟩

/-! ## OPEN and CLOSE -/

/-- The state in which OPEN or CLOSE, begun in IDLE, waits for the transport (R222, R223). -/
def handleWaiting (p : Pending) (s : State) : State :=
  { clearOutcome s with phase := .done, pending := p }

/-- OPEN and CLOSE begun in IDLE wait, each for the answer to its own call. -/
theorem exec_handle {i : Instr} {up : Bool} {call : TransportCall} {s : State}
    (hi : (i = .openLine ∧ up = true ∧ call = .openLine) ∨
      (i = .closeLine ∧ up = false ∧ call = .closeLine)) (hp : s.phase = .idle) :
    ∃ p, exec i s = .next (handleWaiting p s) ∧
      (quiet s = true → step (handleWaiting p s) = handleStep call up (handleWaiting p s)) := by
  rcases hi with ⟨rfl, rfl, rfl⟩ | ⟨rfl, rfl, rfl⟩
  · exact ⟨.opening, (beginHandle_eq _ s).trans (if_pos hp), fun hq => step_done rfl hq⟩
  · exact ⟨.closing, (beginHandle_eq _ s).trans (if_pos hp), fun hq => step_done rfl hq⟩

/-- Settles O56: the block waits in DONE, and the answer decides what is written. -/
theorem openAndCloseFollowTheTransport : Obligations.OpenAndCloseFollowTheTransport := by
  intro s i up call hi hp
  obtain ⟨p, hexec, hstep⟩ := exec_handle hi hp
  have hidle : s = { s with phase := .idle } := by rw [← hp]
  refine ⟨_, hexec, rfl, rfl, fun hq hnone => ?_, fun rest hq hans => ?_, fun e rest hq hans => ?_⟩
  · rw [hstep hq, handleStep, show (handleWaiting p s).lineAns = [] from hnone]
  · have hans : (handleWaiting p s).lineAns = .ok :: rest := hans
    rw [hstep hq, handleStep, hans]
    refine ⟨_, rfl, rfl, rfl, rfl, rfl, ?_⟩
    rw [hidle]
    rfl
  · have hans : (handleWaiting p s).lineAns = .err e :: rest := hans
    rw [hstep hq, handleStep, hans]
    refine ⟨_, rfl, rfl, rfl, rfl, rfl, rfl, ?_⟩
    rw [hidle]
    rfl

end Sys2Proof.Machine
end

section
/-! PROOFS. Who calls the transport and who writes XERR (20_memory.md R59, 44_exchange.md R218, R220, R224): no
host event but `rst`, and neither ENCODE nor VALIDATE. -/

namespace Sys2Proof.Machine

/-- From `s` to `t` no transport call was made and XERR stayed. -/
def TransportUntouched (s t : State) : Prop := t.calls = s.calls ∧ t.xerr = s.xerr

/-- A host event calls nobody, and only `rst` puts a value in XERR. -/
theorem hostAction_transport {e : HostEvent} {s t : State} (h : (hostAction e s).result = .next t) :
    t.calls = s.calls ∧ (e ≠ .rst → t.xerr = s.xerr) := by
  rcases hostAction_cases h with ⟨w, -, ⟨-, rfl⟩ | ⟨-, hw⟩⟩ | ⟨rfl, rfl⟩ |
    ⟨_, _, _, -, rfl | ⟨-, _, rfl⟩⟩ | ⟨_, -, rfl⟩ |
    ⟨_, -, ⟨-, rfl⟩ | ⟨-, -, rfl⟩ | ⟨_, -, -, rfl⟩⟩
  · exact ⟨rfl, fun _ => rfl⟩
  · rw [putReg_frame hw]
    exact ⟨rfl, fun _ => rfl⟩
  · exact ⟨rfl, fun hr => absurd rfl hr⟩
  all_goals exact ⟨rfl, fun _ => rfl⟩

theorem encodeAction_transport {s t : State} (h : (encodeAction s).result = .next t) :
    TransportUntouched s t := by
  rcases encodeAction_cases h with ⟨_, -, rfl⟩ | ⟨_, _, -, -, -, -, rfl⟩
  · exact ⟨rfl, rfl⟩
  · rw [storeFrame_eq]
    exact ⟨rfl, rfl⟩

theorem validateAction_transport {s t : State} (h : (validateAction s).result = .next t) :
    TransportUntouched s t := by
  obtain ⟨_, _, -, rfl⟩ := validateAction_cases h
  exact ⟨rfl, rfl⟩

/-- Settles O12: the call made is the one of the phase, and its answer leads out of it. -/
theorem oneCallPerPhase : Obligations.OneCallPerPhase := by
  intro s t h
  rcases step_cases h with ⟨e, rest, -, h⟩ |
    ⟨-, ⟨-, rfl⟩ | ⟨-, h⟩ | ⟨hp, h⟩ | ⟨hp, h⟩ | ⟨-, h⟩ | ⟨hp, h⟩⟩
  · exact .inl (hostAction_transport h).1
  · exact .inl rfl
  · exact .inl (encodeAction_transport h).1
  · rcases sendStep_cases h with ⟨-, rfl⟩ | ⟨f, _, hf, ⟨-, rfl⟩ | ⟨_, -, rfl⟩⟩
    · exact .inl rfl
    · exact .inr ⟨.send f, rfl, hp, hf, .inl rfl⟩
    · exact .inr ⟨.send f, rfl, hp, hf, .inr rfl⟩
  · rcases receiveStep_cases s with ⟨-, hr⟩ | ⟨_, _, -, hr⟩ | ⟨_, _, -, -, hr⟩ | ⟨_, _, -, -, hr⟩ <;>
      rw [hr] at h <;> cases h
    · exact .inl rfl
    · exact .inr ⟨.read, rfl, hp, .inr rfl⟩
    · exact .inr ⟨.read, rfl, hp, .inr rfl⟩
    · exact .inr ⟨.read, rfl, hp, .inl rfl⟩
  · exact .inl (validateAction_transport h).1
  · rcases doneStep_cases h with ⟨_, -, rfl⟩ |
      ⟨call, _, hcall, ⟨-, rfl⟩ | ⟨_, -, rfl⟩ | ⟨_, _, -, rfl⟩⟩
    · exact .inl rfl
    · exact .inl rfl
    all_goals
      refine .inr ⟨call, rfl, ?_⟩
      rcases hcall with ⟨hpend, rfl, -⟩ | ⟨hpend, rfl, -⟩ <;> exact ⟨hp, hpend, rfl⟩

/-- Only the two transport failures carry an error to XERR (R224). -/
theorem cause_eq_some {e : Ending} {x : TransportError} (h : e.cause = some x) :
    e.kind = .transport ∧ (e = .fail (.transportFailure x) ∨ e = .fail (.handleFailure x)) := by
  match e, h with
  | .fail (.transportFailure _), rfl => exact ⟨rfl, .inl rfl⟩
  | .fail (.handleFailure _), rfl => exact ⟨rfl, .inr rfl⟩

/-- DONE writes XERR with the error of a waiting transport failure, or the one `open` or `close` was answered
with (R218, R222, R224). -/
theorem doneStep_xerr {s t : State} (h : doneStep s = .next t) :
    t.xerr = s.xerr ∨ (t.phase = .idle ∧ t.resValid = true ∧ t.resKind = .transport ∧
      (s.pending = .ending (.fail (.transportFailure t.xerr)) ∨
        s.pending = .ending (.fail (.handleFailure t.xerr)) ∨
        (s.lineAns.head? = some (.err t.xerr) ∧ (s.pending = .opening ∨ s.pending = .closing)))) := by
  rcases doneStep_cases h with ⟨e, he, rfl⟩ |
    ⟨_, _, hcall, ⟨-, rfl⟩ | ⟨_, -, rfl⟩ | ⟨x, _, hans, rfl⟩⟩
  · cases hc : e.cause with
    | none => exact .inl (by rw [finish_xerr, hc]; rfl)
    | some x =>
      obtain ⟨hkind, hx⟩ := cause_eq_some hc
      have hxerr : (finish e s).xerr = x := by rw [finish_xerr, hc]; rfl
      rw [hxerr, he]
      exact .inr ⟨rfl, rfl, hkind, hx.imp (congrArg _) fun hx => .inl (congrArg _ hx)⟩
  · exact .inl rfl
  · exact .inl rfl
  · exact .inr ⟨rfl, rfl, rfl, .inr (.inr ⟨by rw [hans]; rfl, hcall.imp And.left And.left⟩)⟩

/-- Settles O60: of SEQ's own steps only DONE writes XERR. -/
theorem xerrHoldsBetweenTransportFailures : Obligations.XerrHoldsBetweenTransportFailures := by
  intro s t h hr
  rcases step_cases h with ⟨e, rest, hl, h⟩ |
    ⟨-, ⟨-, rfl⟩ | ⟨-, h⟩ | ⟨-, h⟩ | ⟨-, h⟩ | ⟨-, h⟩ | ⟨hp, h⟩⟩
  · exact .inl ((hostAction_transport h).2 fun he => hr rest (he ▸ hl))
  · exact .inl rfl
  · exact .inl (encodeAction_transport h).2
  · rcases sendStep_cases h with ⟨-, rfl⟩ | ⟨_, _, -, ⟨-, rfl⟩ | ⟨_, -, rfl⟩⟩ <;> exact .inl rfl
  · rcases receiveStep_cases s with ⟨-, hr⟩ | ⟨_, _, -, hr⟩ | ⟨_, _, -, -, hr⟩ | ⟨_, _, -, -, hr⟩ <;>
      rw [hr] at h <;> cases h <;> exact .inl rfl
  · exact .inl (validateAction_transport h).2
  · exact (doneStep_xerr h).imp_right fun hx => ⟨hp, hx⟩

end Sys2Proof.Machine
end

section
/-! PROOFS. The exchange (44_exchange.md R210): phase by phase, from the last back to the start, the run from there
to IDLE gives what remains of the seven-step function, and makes the calls that remain. -/

namespace Sys2Proof.Machine

/-! ## Encoding -/

/-- Every request row has a format in the table (R80, R86). -/
theorem exists_requestBody {i : Instr} {fn : Byte} (hi : requestFn i = some fn) (mode : WmcMode) :
    ∃ body, requestBody mode i = some body := by
  cases i <;> simp only [requestFn, reduceCtorEq] at hi
  all_goals exact ⟨_, rfl⟩

/-- An ill-formed command ends in a failure or a refusal, never in a result. -/
theorem illFormedEnding_ne_ok (w : IllFormed) (res : Result) : illFormedEnding w ≠ .ok res := by
  cases w <;> exact nofun

/-- A request row computes the typed encoding: where that fails, its outcome waits in DONE; where it gives a frame,
the frame is stored (R130, R131). -/
theorem exec_request {i : Instr} {fn : Byte} (hi : requestFn i = some fn) (s : State) :
    (∃ e, encodeCommand s.cfg i = .error e ∧ (∀ res, e ≠ .ok res) ∧ exec i s = .next (endWith e s)) ∨
    ∃ body, encodeCommand s.cfg i = .ok (withCrc body) ∧ exec i s = .next (storeFrame body s) := by
  cases hw : illFormed s.cfg.wmcMode i with
  | some w =>
    exact .inl ⟨_, by rw [encodeCommand, hw], illFormedEnding_ne_ok w, exec_of_illFormed hw⟩
  | none =>
    obtain ⟨body, hbody⟩ := exists_requestBody hi s.cfg.wmcMode
    have hexec := exec_of_wellFormed hbody (by rw [wellFormed, hw]; rfl)
    have henc : encodeCommand s.cfg i =
        if body.length + 2 > s.cfg.txBufMax ∨ valueCount i > s.cfg.nvMax then
          .error (.refused .bufferOverflow)
        else .ok (withCrc body) := by
      simp only [encodeCommand, hw, requestFrame, hbody, Option.map_some, length_withCrc]
    rw [hexec, henc, emit]
    split
    · exact .inl ⟨_, rfl, nofun, rfl⟩
    · exact .inr ⟨body, rfl, rfl⟩

/-! ## What remains of the function -/

/-- What the answer to `read` leaves of the seven steps (R210). -/
def readOutcome (cfg : Config) (fn : Byte) (raw : Bool) : ReadAnswer → Ending
  | .err e => .fail (.transportFailure e)
  | .bytes r => if r.length > cfg.rxBufMax then .refused .bufferOverflow else validateResponse fn raw r

/-- What the answer to `send` leaves of the seven steps (R210). -/
def sendOutcome (cfg : Config) (fn : Byte) (raw : Bool) (got : ReadAnswer) : CallAnswer → Ending
  | .err e => .fail (.transportFailure e)
  | .ok => readOutcome cfg fn raw got

/-- The calls from SEND on, given the answer to `send` (R210). -/
def callsFromSend (f : List Byte) : CallAnswer → List TransportCall
  | .err _ => [.send f]
  | .ok => [.send f, .read]

/-- The calls of a whole exchange (R210). -/
def exchangeCalls (cfg : Config) (i : Instr) (sent : CallAnswer) : List TransportCall :=
  match encodeCommand cfg i with
  | .error _ => []
  | .ok f => callsFromSend f sent

/-- The seven steps are the encoding and, where it gives a frame, what follows the `send`. -/
theorem exchangeOutcome_eq {cfg : Config} {i : Instr} {fn : Byte} (hi : requestFn i = some fn) (raw : Bool)
    (sent : CallAnswer) (got : ReadAnswer) :
    exchangeOutcome cfg i raw sent got =
      match encodeCommand cfg i with
      | .error e => e
      | .ok _ => sendOutcome cfg fn raw got sent := by
  unfold exchangeOutcome
  rw [hi]
  rfl

/-! ## Runs to the outcome -/

/-- From `s` the block is back in IDLE after 2 to `n` steps, this outcome written and, if it is a result, readable;
until then it has made these calls, and it has marked the run exactly by a refused outcome. -/
def Concludes (s : State) (n : Nat) (e : Ending) (calls : List TransportCall) : Prop :=
  ∃ k t, 2 ≤ k ∧ k ≤ n ∧ steps k s = .next t ∧ OutcomeWritten e t ∧
    (∀ res, e = .ok res → resultView t = some res) ∧ t.refusal = s.refusal.or e.reason ∧
    t.calls = s.calls ++ calls

/-- A step that marks nothing and makes these calls leaves the rest to the state it leads to. -/
theorem concludes_of_step {n : Nat} {e : Ending} {made calls : List TransportCall} {s u : State}
    (h : step s = .next u) (hr : u.refusal = s.refusal) (hc : u.calls = s.calls ++ made)
    (hu : Concludes u n e calls) : Concludes s (n + 1) e (made ++ calls) := by
  obtain ⟨k, t, hlow, hhigh, hsteps, hwritten, hresult, hmark, hcalls⟩ := hu
  exact ⟨k + 1, t, by omega, by omega, (steps_succ h).trans hsteps, hwritten, hresult, hr ▸ hmark,
    by rw [hcalls, hc, List.append_assoc]⟩

/-- A step that meets an outcome is followed by the one that writes it. -/
theorem concludes_of_endWith {n : Nat} {e : Ending} {made : List TransportCall} {s u : State}
    (h : step s = .next (endWith e u)) (hn : 2 ≤ n) (hq : quiet u = true) (hr : u.refusal = s.refusal)
    (hc : u.calls = s.calls ++ made)
    (hw : ∀ res, e = .ok res → ∃ r, rxFrame u = .ok r ∧ validateResponse u.reqFn u.reqRaw r = .ok res) :
    Concludes s n e made := by
  refine ⟨2, finish e (endWith e u), Nat.le_refl 2, hn, (steps_succ h).trans (steps_succ (step_endWith e hq)),
    outcomeWritten_finish .., ?_, ?_, hc⟩
  · rintro res rfl
    obtain ⟨r, hrx, hv⟩ := hw res rfl
    exact resultView_finish_ok (rxFrame_ok_congr hrx rfl rfl) hv
  · rw [finish_refusal, endWith_refusal, hr]

/-- The response stored reads as the bytes that were sent (R215). -/
theorem rxFrame_stored {s t : State} (r : List Byte) (hb : t.rxb = writeBytes s.rxb 0 r)
    (hl : t.rxLen = r.length) : rxFrame t = .ok r := by
  refine (rxFrame_ok_iff ..).2 ⟨hl.symm, fun k hk => ?_⟩
  rw [hb, read_writeBytes, if_pos (by omega)]
  rfl

section
variable {s : State} (hq : quiet s = true)
include hq

/-- VALIDATE and the writing of its outcome (R217, R218). -/
theorem concludes_validate {r : List Byte} (hp : s.phase = .validate) (hc : catalogued s.reqFn = true)
    (hr : rxFrame s = .ok r) : Concludes s 2 (validateResponse s.reqFn s.reqRaw r) [] :=
  concludes_of_endWith ((step_validate hp hq).trans (validateAction_eq hr hc)) (Nat.le_refl 2) hq rfl
    (List.append_nil _).symm fun _ hv => ⟨r, rxFrame_ok_congr hr rfl rfl, hv⟩

/-- From RECEIVE on, by the answer to `read` (R215, R219). -/
theorem concludes_receive {got : ReadAnswer} {more : List ReadAnswer} (hp : s.phase = .receive)
    (hc : catalogued s.reqFn = true) (hans : s.readAns = got :: more) :
    Concludes s 3 (readOutcome s.cfg s.reqFn s.reqRaw got) [.read] := by
  cases got with
  | err e => exact concludes_of_endWith (step_receive_err hp hq hans) (by omega) hq rfl rfl nofun
  | bytes r =>
    by_cases hl : s.cfg.rxBufMax < r.length
    · rw [readOutcome, if_pos hl]
      exact concludes_of_endWith (step_receive_overflow hp hq hans hl) (by omega) hq rfl rfl nofun
    · rw [readOutcome, if_neg hl]
      refine concludes_of_step (step_receive_bytes hp hq hans (Nat.le_of_not_lt hl)) rfl rfl ?_
      refine concludes_validate ?_ rfl hc (rxFrame_stored (s := s) r rfl rfl)
      exact hq

/-- From SEND on, by the answer to `send` (R213). -/
theorem concludes_send {f : List Byte} {sent : CallAnswer} {moreLine : List CallAnswer} {got : ReadAnswer}
    {moreRead : List ReadAnswer} (hp : s.phase = .send) (hc : catalogued s.reqFn = true)
    (hf : txFrame s = .ok f) (hline : s.lineAns = sent :: moreLine) (hread : s.readAns = got :: moreRead) :
    Concludes s 4 (sendOutcome s.cfg s.reqFn s.reqRaw got sent) (callsFromSend f sent) := by
  cases sent with
  | err e => exact concludes_of_endWith (step_send_err hp hq hf hline) (by omega) hq rfl rfl nofun
  | ok =>
    refine concludes_of_step (step_send_ok hp hq hf hline) rfl rfl ?_
    refine concludes_receive ?_ rfl hc hread
    exact hq

/-- From ENCODE on, by whether the command has a frame (R212). -/
theorem concludes_encode {w : PortWord} {i : Instr} {sent : CallAnswer} {moreLine : List CallAnswer}
    {got : ReadAnswer} {moreRead : List ReadAnswer} (hp : s.phase = .encode)
    (hw : commandOperands s = .ok w) (hd : decode w = .ok i) (hfn : s.fn = some s.reqFn)
    (hline : s.lineAns = sent :: moreLine) (hread : s.readAns = got :: moreRead) :
    Concludes s 5 (exchangeOutcome s.cfg i s.reqRaw sent got) (exchangeCalls s.cfg i sent) := by
  obtain ⟨fn, i', hfn', hc, hd', hi⟩ := decode_commandOperands hw
  cases hd.symm.trans hd'
  cases hfn.symm.trans hfn'
  have hstep : step s = exec i s := stepRunsTheDecodedInstruction.1 s w i hp hq hw hd
  rw [exchangeOutcome_eq hi, exchangeCalls]
  rcases exec_request hi s with ⟨e, henc, hno, hx⟩ | ⟨body, henc, hx⟩
  · rw [henc]
    exact concludes_of_endWith (hstep.trans hx) (by omega) hq rfl (List.append_nil _).symm
      fun res he => absurd he (hno res)
  · have hframe := txFrame_storeFrame body s
    rw [storeFrame_eq] at hx hframe
    rw [henc]
    refine concludes_of_step (hstep.trans hx) rfl (List.append_nil _).symm ?_
    refine concludes_send ?_ rfl hc hframe hline hread
    exact hq

end

/-- Settles O57: a start leaves the registers' command in ENCODE, and the run from there is the seven steps. -/
theorem exchangeRefinesTheTypedAlgorithm : Obligations.ExchangeRefinesTheTypedAlgorithm := by
  intro s rest w i raw sent moreLine got moreRead hp hin hq hw hd hraw hline hread
  obtain ⟨fn, -, hfn, -⟩ := decode_commandOperands hw
  have hlatchFn : (startExchange { s with hostIn := rest }).reqFn = fn := by simp [hfn]
  have hlatchRaw : (startExchange { s with hostIn := rest }).reqRaw = raw := by simp [hraw]
  have hrun := concludes_encode (s := startExchange { s with hostIn := rest }) hq rfl hw hd
    (hlatchFn ▸ hfn) hline hread
  rw [hlatchRaw] at hrun
  obtain ⟨k, t, hlow, hhigh, hsteps, hwritten, hresult, hmark, hcalls⟩ := hrun
  refine ⟨k + 1, t, by omega, by omega, (steps_succ (step_start hp (.inl hin))).trans hsteps, hwritten, hresult,
    hmark, hcalls.trans ?_⟩
  show s.calls ++ exchangeCalls s.cfg i sent = _
  rw [exchangeCalls]
  cases encodeCommand s.cfg i <;> cases sent <;> rfl

end Sys2Proof.Machine
end

section
/-! PROOFS. Reset (70_reset_and_hazards.md R280, R281): what `rst` makes of the block in any phase. -/

namespace Sys2Proof.Machine

/-- `rst` lands in every phase and leaves the reset state, the inputs still to come kept (R280, R281). -/
theorem step_rst {s : State} {rest : List HostInput} (hl : lands .rst rest s) :
    step s = .next (hardReset { s with hostIn := rest }) := step_of_lands hl

/-- After reset the block waits as long as the host issues nothing (R280). -/
theorem step_hardReset_waits {s : State} (hin : s.hostIn = []) :
    step (hardReset s) = .next (hardReset s) :=
  step_idle rfl fun e rest hl => by simp [lands, hin] at hl

/-- Settles O1: the state `rst` leaves, field by field, and it waits. -/
theorem rstPutsTheSpecifiedValues : Obligations.RstPutsTheSpecifiedValues := fun s rest hl =>
  ⟨_, step_rst hl, rfl, rfl, rfl, rfl, rfl, rfl, rfl, rfl, rfl, rfl, rfl, rfl, rfl, rfl, fun _ => rfl,
    rfl, rfl, rfl, step_hardReset_waits (s := { s with hostIn := rest })⟩

end Sys2Proof.Machine
end

section
/-! PROOFS. What the machine refuses (70_reset_and_hazards.md R286): a start, OPEN or CLOSE while busy.
Nothing else is refused: the rows of the table but OPEN and CLOSE, SEQ's own step and the other host
events go on or fault. -/

namespace Sys2Proof.Machine

/-! ## Answers that are no refusal -/

/-- The answer goes on or faults: the machine does not refuse. -/
def Unrefused (o : StepResult) : Prop := ∀ r, o ≠ .refused r

@[simp] theorem unrefused_next (s : State) : Unrefused (.next s) := fun _ => nofun

@[simp] theorem unrefused_fault (f : Fault) : Unrefused (.fault f) := fun _ => nofun

theorem unrefused_of_goesOn {o : StepResult} (h : ∃ t, o = .next t) : Unrefused o := by
  obtain ⟨t, rfl⟩ := h
  exact unrefused_next t

/-- A read refuses nothing of itself. -/
@[simp] theorem unrefused_reading {α : Type} {x : Except Fault α} {k : α → StepResult} :
    Unrefused (reading x k) ↔ ∀ v, x = .ok v → Unrefused (k v) := by
  cases x <;> simp

@[simp] theorem unrefused_ite {c : Prop} [Decidable c] {x y : StepResult} :
    Unrefused (if c then x else y) ↔ (c → Unrefused x) ∧ (¬ c → Unrefused y) := by
  split <;> simp [*]

/-! ## Rows of the table -/

@[simp] theorem layoutMismatch_unrefused (s : State) : Unrefused (layoutMismatch s) := unrefused_next _

@[simp] theorem okWith_unrefused (res : Result) (s : State) : Unrefused (okWith res s) := unrefused_next _

theorem decodeRaw_unrefused (s : State) : Unrefused (decodeRaw s) := by simp [decodeRaw]

theorem decodeBits_unrefused (s : State) : Unrefused (decodeBits s) := by simp [decodeBits]

theorem decodeRegs_unrefused (s : State) : Unrefused (decodeRegs s) := by simp [decodeRegs]

theorem decodeEcho_unrefused (s : State) : Unrefused (decodeEcho s) := by simp [decodeEcho]

theorem decodeStatus_unrefused (s : State) : Unrefused (decodeStatus s) := by simp [decodeStatus]

theorem decodeCounter_unrefused (s : State) : Unrefused (decodeCounter s) := by simp [decodeCounter]

theorem decodeLog_unrefused (s : State) : Unrefused (decodeLog s) := by simp [decodeLog]

/-- Neither the checksum nor the raw frame refuses, so a row refuses only where its decoder does. -/
theorem checkedDecode_unrefused {d : State → StepResult} (hd : ∀ s, Unrefused (d s)) (s : State) :
    Unrefused (checkedDecode d s) := by
  simp [checkedDecode, hd _, decodeRaw_unrefused _]

theorem onCrcPort_unrefused (op : State → State) (s : State) : Unrefused (onCrcPort op s) := by
  rw [onCrcPort_eq]
  exact unrefused_next _

/-- No row but OPEN and CLOSE refuses, in any phase. -/
theorem exec_unrefused {i : Instr} (ho : i ≠ .openLine) (hc : i ≠ .closeLine) (s : State) :
    Unrefused (exec i s) := by
  cases i
  case openLine => exact absurd rfl ho
  case closeLine => exact absurd rfl hc
  case rcResponse | rdiResponse => exact checkedDecode_unrefused decodeBits_unrefused s
  case rhrResponse | rirResponse => exact checkedDecode_unrefused decodeRegs_unrefused s
  case wscResponse | wsrResponse => exact checkedDecode_unrefused decodeEcho_unrefused s
  case resResponse => exact checkedDecode_unrefused decodeStatus_unrefused s
  case gcecResponse => exact checkedDecode_unrefused decodeCounter_unrefused s
  case gcelResponse => exact checkedDecode_unrefused decodeLog_unrefused s
  case diagResponse | wmcResponse | wmrResponse | rsidResponse =>
    exact checkedDecode_unrefused decodeRaw_unrefused s
  case exceptionResponse => exact unrefused_reading.2 fun _ _ => unrefused_next _
  case crcInit | crcUpdate | crcHold => exact onCrcPort_unrefused _ s
  case xltLookup => exact unrefused_next _
  all_goals exact unrefused_of_goesOn (request_goesOn rfl s)

/-- A response's function byte never decodes to OPEN or CLOSE (R87). -/
theorem decodeResponse_ne_handle {reqFn f : Byte} {i : Instr} (h : decodeResponse reqFn f = .ok i) :
    i ≠ .openLine ∧ i ≠ .closeLine := by
  unfold decodeResponse decodeSuccess at h
  split at h
  · split at h <;> cases h <;> exact ⟨nofun, nofun⟩
  · split at h <;> cases h
    exact ⟨nofun, nofun⟩

/-! ## SEQ's own step -/

theorem sendStep_unrefused (s : State) : Unrefused (sendStep s) := by
  unfold sendStep
  match s.lineAns with
  | [] => exact unrefused_next s
  | .ok :: _ | .err _ :: _ => exact unrefused_reading.2 fun _ _ => unrefused_next _

theorem validateAction_unrefused (s : State) : Unrefused (validateAction s).result := by
  unfold validateAction
  split
  · exact unrefused_next _
  · split
    · exact unrefused_fault _
    · split
      · next hi =>
        obtain ⟨ho, hc⟩ := decodeResponse_ne_handle hi
        exact exec_unrefused ho hc s
      · exact unrefused_next _
      · exact unrefused_fault _

theorem doneStep_unrefused (s : State) : Unrefused (doneStep s) := by
  by_cases h : s.pending = .nothing
  · rw [doneStep, h]
    exact unrefused_fault _
  · exact unrefused_of_goesOn (doneStep_goesOn h)

/-- SEQ refuses nothing of its own: a refused outcome of R16 is a next state (log entry 7). -/
theorem seqAction_unrefused (s : State) : Unrefused (seqAction s).result := by
  unfold seqAction
  split
  · exact unrefused_next s
  · exact unrefused_of_goesOn (encodeAction_goesOn s)
  · exact sendStep_unrefused s
  · exact unrefused_of_goesOn (receiveStep_goesOn s)
  · exact validateAction_unrefused s
  · exact doneStep_unrefused s

/-! ## Host events -/

theorem writeReg_unrefused (w : RegWrite) (s : State) : Unrefused (writeReg w s) := by
  have hput : Unrefused (putReg w s) := by
    cases w
    case value i x => exact unrefused_ite.2 ⟨fun _ => unrefused_next _, fun _ => unrefused_fault _⟩
    all_goals exact unrefused_next _
  exact unrefused_ite.2 ⟨fun _ => unrefused_next s, fun _ => hput⟩

theorem hostStart_eq (s : State) :
    hostStart s = if s.phase = .idle then .next (startExchange s) else .refused .busyStart := by
  unfold hostStart busy
  by_cases h : s.phase = .idle <;> simp [h]

/-- An operation the host begins in IDLE is refused exactly in the other phases (R286). -/
theorem begin_refused_iff {s t : State} {r : Refusal} :
    (if s.phase = .idle then .next t else .refused .busyStart : StepResult) = .refused r ↔
      r = .busyStart ∧ s.phase ≠ .idle := by
  split
  · next hp => simp [hp]
  · next hp => simp [hp, eq_comm (a := r)]

/-- A start, OPEN or CLOSE is refused exactly while busy, `cmd_kind = 00` never (R92, R286). -/
theorem command_refused_iff {kind : BitVec 2} {s : State} {r : Refusal} :
    (hostAction (.command kind) s).result = .refused r ↔
      r = .busyStart ∧ s.phase ≠ .idle ∧ kind ≠ 0 := by
  have hbegin {op : StepResult} {t : State} (hk : kind ≠ 0)
      (hop : op = if s.phase = .idle then .next t else .refused .busyStart) :
      op = .refused r ↔ r = .busyStart ∧ s.phase ≠ .idle ∧ kind ≠ 0 := by
    rw [hop, begin_refused_iff, and_iff_left hk]
  have hkinds : ∀ k : BitVec 2, k = 0 ∨ k = 1 ∨ k = 2 ∨ k = 3 := by decide
  rcases hkinds kind with rfl | rfl | rfl | rfl
  · exact ⟨nofun, fun ⟨_, _, hk⟩ => absurd rfl hk⟩
  · exact hbegin (by decide) (hostStart_eq s)
  · exact hbegin (by decide) (beginHandle_eq .opening s)
  · exact hbegin (by decide) (beginHandle_eq .closing s)

/-- Of the host events only a command is ever refused. -/
theorem hostAction_unrefused {e : HostEvent} (he : ∀ kind, e ≠ .command kind) (s : State) :
    Unrefused (hostAction e s).result := by
  cases e with
  | write w => exact writeReg_unrefused w s
  | command kind => exact absurd rfl (he kind)
  | crcPort init en din => cases init <;> cases en <;> exact onCrcPort_unrefused _ s
  | xltPort code => exact unrefused_next _
  | rst => exact unrefused_next _

/-- A step refuses exactly a command that lands while busy. -/
theorem step_refused_iff {s : State} {r : Refusal} :
    step s = .refused r ↔
      r = .busyStart ∧ s.phase ≠ .idle ∧ ∃ kind rest, kind ≠ 0 ∧ lands (.command kind) rest s := by
  constructor
  · intro h
    match ha : arriving s with
    | none => exact absurd (step_of_none ha ▸ h) (seqAction_unrefused s r)
    | some (e, rest) =>
      have hl : lands e rest s := (arriving_iff_lands s e rest).1 ha
      rw [step_of_lands hl] at h
      by_cases he : ∃ kind, e = .command kind
      · obtain ⟨kind, rfl⟩ := he
        obtain ⟨hr, hp, hk⟩ := command_refused_iff.1 h
        exact ⟨hr, hp, kind, rest, hk, hl⟩
      · exact absurd h (hostAction_unrefused (not_exists.1 he) _ r)
  · rintro ⟨hr, hp, kind, rest, hk, hl⟩
    rw [step_of_lands hl]
    exact command_refused_iff.2 ⟨hr, hp, hk⟩

/-- A register write that lands while busy is used up and ignored (R286). -/
theorem step_write_busy {s : State} {w : RegWrite} {rest : List HostInput} (hp : s.phase ≠ .idle)
    (hl : lands (.write w) rest s) : step s = .next { s with hostIn := rest } := by
  rw [step_of_lands hl]
  exact if_pos (by simpa [busy] using hp)

/-- Settles O7: a step refuses exactly a command while busy, and a write while busy changes nothing. -/
theorem busyCommandsAreRefusedAndWritesIgnored : Obligations.BusyCommandsAreRefusedAndWritesIgnored :=
  ⟨fun _ _ => step_refused_iff, fun _ _ _ => step_write_busy⟩

end Sys2Proof.Machine
end
